-- ==== Sys2Proof/Word.lean ====
section
/-! DEFINITION. The two word widths of the machine: bytes and 16-bit words (00_scope.md R7, R10). -/

namespace Sys2Proof

/-- An 8-bit value: registers, memory bytes, port data (00_scope.md R7). -/
abbrev Byte := BitVec 8

/-- A 16-bit value: register pairs, memory addresses, port addresses (00_scope.md R7). -/
abbrev Word := BitVec 16

end Sys2Proof
end

