-- ==== Sys2Proof/Syntax.lean ====
section
/-! DEFINITION. The instruction set: one constructor for each row of spec/opcode_table.json, in its order
(00_scope.md R2, 30_encoding.md R140 to R157). -/

namespace Sys2Proof

/-- The 8-bit registers an operand code selects: table `R8` (30_encoding.md R143). Code 6 is no register. -/
inductive Reg8 where
  | b
  | c
  | d
  | e
  | h
  | l
  | a
  deriving DecidableEq, Repr, Inhabited

/-- Table `R16` (30_encoding.md R144). -/
inductive Reg16 where
  | bc
  | de
  | hl
  | sp
  deriving DecidableEq, Repr, Inhabited

/-- Table `R16AF` (30_encoding.md R144). -/
inductive Reg16AF where
  | bc
  | de
  | hl
  | af
  deriving DecidableEq, Repr, Inhabited

/-- Table `R16IX` (30_encoding.md R144). -/
inductive Reg16IX where
  | bc
  | de
  | ix
  | sp
  deriving DecidableEq, Repr, Inhabited

/-- Table `R16IY` (30_encoding.md R144). -/
inductive Reg16IY where
  | bc
  | de
  | iy
  | sp
  deriving DecidableEq, Repr, Inhabited

/-- Table `CC`, the condition codes (30_encoding.md R144, 10_state.md R38). -/
inductive Cond where
  | nz
  | z
  | nc
  | c
  | po
  | pe
  | p
  | m
  deriving DecidableEq, Repr, Inhabited

/-- One constructor for each instruction form. `disp` is the byte `d` of an indexed operand, `e` the byte of a
relative jump, `n` and `nn` immediates, `bit` a bit number, `target` a restart address (30_encoding.md R155). -/
inductive Instr where
  /-- `LD r,r'` (40_load8.md R200). -/
  | ldRR (dst : Reg8) (src : Reg8)
  /-- `LD r,n` (40_load8.md R201). -/
  | ldRN (dst : Reg8) (n : Byte)
  /-- `LD r,(HL)` (40_load8.md R202). -/
  | ldRAtHL (dst : Reg8)
  /-- `LD r,(IX+d)` (40_load8.md R203). -/
  | ldRAtIX (dst : Reg8) (disp : Byte)
  /-- `LD r,(IY+d)` (40_load8.md R204). -/
  | ldRAtIY (dst : Reg8) (disp : Byte)
  /-- `LD (HL),r` (40_load8.md R205). -/
  | ldAtHLR (src : Reg8)
  /-- `LD (IX+d),r` (40_load8.md R206). -/
  | ldAtIXR (disp : Byte) (src : Reg8)
  /-- `LD (IY+d),r` (40_load8.md R207). -/
  | ldAtIYR (disp : Byte) (src : Reg8)
  /-- `LD (HL),n` (40_load8.md R208). -/
  | ldAtHLN (n : Byte)
  /-- `LD (IX+d),n` (40_load8.md R209). -/
  | ldAtIXN (disp : Byte) (n : Byte)
  /-- `LD (IY+d),n` (40_load8.md R210). -/
  | ldAtIYN (disp : Byte) (n : Byte)
  /-- `LD A,(BC)` (40_load8.md R211). -/
  | ldAAtBC
  /-- `LD A,(DE)` (40_load8.md R212). -/
  | ldAAtDE
  /-- `LD A,(nn)` (40_load8.md R213). -/
  | ldAAtNN (nn : Word)
  /-- `LD (BC),A` (40_load8.md R214). -/
  | ldAtBCA
  /-- `LD (DE),A` (40_load8.md R215). -/
  | ldAtDEA
  /-- `LD (nn),A` (40_load8.md R216). -/
  | ldAtNNA (nn : Word)
  /-- `LD A,I` (40_load8.md R217). -/
  | ldAI
  /-- `LD A,R` (40_load8.md R218). -/
  | ldARefresh
  /-- `LD I,A` (40_load8.md R219). -/
  | ldIA
  /-- `LD R,A` (40_load8.md R220). -/
  | ldRefreshA
  /-- `LD dd,nn` (41_load16.md R230). -/
  | ldDDNN (dd : Reg16) (nn : Word)
  /-- `LD IX,nn` (41_load16.md R231). -/
  | ldIXNN (nn : Word)
  /-- `LD IY,nn` (41_load16.md R232). -/
  | ldIYNN (nn : Word)
  /-- `LD HL,(nn)` (41_load16.md R233). -/
  | ldHLAtNN (nn : Word)
  /-- `LD dd,(nn)` (41_load16.md R234). -/
  | ldDDAtNN (dd : Reg16) (nn : Word)
  /-- `LD IX,(nn)` (41_load16.md R235). -/
  | ldIXAtNN (nn : Word)
  /-- `LD IY,(nn)` (41_load16.md R236). -/
  | ldIYAtNN (nn : Word)
  /-- `LD (nn),HL` (41_load16.md R237). -/
  | ldAtNNHL (nn : Word)
  /-- `LD (nn),dd` (41_load16.md R238). -/
  | ldAtNNDD (nn : Word) (dd : Reg16)
  /-- `LD (nn),IX` (41_load16.md R239). -/
  | ldAtNNIX (nn : Word)
  /-- `LD (nn),IY` (41_load16.md R240). -/
  | ldAtNNIY (nn : Word)
  /-- `LD SP,HL` (41_load16.md R241). -/
  | ldSPHL
  /-- `LD SP,IX` (41_load16.md R242). -/
  | ldSPIX
  /-- `LD SP,IY` (41_load16.md R243). -/
  | ldSPIY
  /-- `PUSH qq` (41_load16.md R244). -/
  | pushQQ (qq : Reg16AF)
  /-- `PUSH IX` (41_load16.md R245). -/
  | pushIX
  /-- `PUSH IY` (41_load16.md R246). -/
  | pushIY
  /-- `POP qq` (41_load16.md R247). -/
  | popQQ (qq : Reg16AF)
  /-- `POP IX` (41_load16.md R248). -/
  | popIX
  /-- `POP IY` (41_load16.md R249). -/
  | popIY
  /-- `EX DE,HL` (42_exchange_block.md R260). -/
  | exDEHL
  /-- `EX AF,AF'` (42_exchange_block.md R261). -/
  | exAFAF
  /-- `EXX` (42_exchange_block.md R262). -/
  | exx
  /-- `EX (SP),HL` (42_exchange_block.md R263). -/
  | exAtSPHL
  /-- `EX (SP),IX` (42_exchange_block.md R264). -/
  | exAtSPIX
  /-- `EX (SP),IY` (42_exchange_block.md R265). -/
  | exAtSPIY
  /-- `LDI` (42_exchange_block.md R266). -/
  | ldi
  /-- `LDIR` (42_exchange_block.md R267). -/
  | ldir
  /-- `LDD` (42_exchange_block.md R268). -/
  | ldd
  /-- `LDDR` (42_exchange_block.md R269). -/
  | lddr
  /-- `CPI` (42_exchange_block.md R270). -/
  | cpi
  /-- `CPIR` (42_exchange_block.md R271). -/
  | cpir
  /-- `CPD` (42_exchange_block.md R272). -/
  | cpd
  /-- `CPDR` (42_exchange_block.md R273). -/
  | cpdr
  /-- `ADD A,r` (43_arith8.md R284). -/
  | addAR (src : Reg8)
  /-- `ADD A,n` (43_arith8.md R285). -/
  | addAN (n : Byte)
  /-- `ADD A,(HL)` (43_arith8.md R286). -/
  | addAAtHL
  /-- `ADD A,(IX+d)` (43_arith8.md R287). -/
  | addAAtIX (disp : Byte)
  /-- `ADD A,(IY+d)` (43_arith8.md R288). -/
  | addAAtIY (disp : Byte)
  /-- `ADC A,r` (43_arith8.md R289). -/
  | adcAR (src : Reg8)
  /-- `ADC A,n` (43_arith8.md R290). -/
  | adcAN (n : Byte)
  /-- `ADC A,(HL)` (43_arith8.md R291). -/
  | adcAAtHL
  /-- `ADC A,(IX+d)` (43_arith8.md R292). -/
  | adcAAtIX (disp : Byte)
  /-- `ADC A,(IY+d)` (43_arith8.md R293). -/
  | adcAAtIY (disp : Byte)
  /-- `SUB r` (43_arith8.md R294). -/
  | subR (src : Reg8)
  /-- `SUB n` (43_arith8.md R295). -/
  | subN (n : Byte)
  /-- `SUB (HL)` (43_arith8.md R296). -/
  | subAtHL
  /-- `SUB (IX+d)` (43_arith8.md R297). -/
  | subAtIX (disp : Byte)
  /-- `SUB (IY+d)` (43_arith8.md R298). -/
  | subAtIY (disp : Byte)
  /-- `SBC A,r` (43_arith8.md R299). -/
  | sbcAR (src : Reg8)
  /-- `SBC A,n` (43_arith8.md R300). -/
  | sbcAN (n : Byte)
  /-- `SBC A,(HL)` (43_arith8.md R301). -/
  | sbcAAtHL
  /-- `SBC A,(IX+d)` (43_arith8.md R302). -/
  | sbcAAtIX (disp : Byte)
  /-- `SBC A,(IY+d)` (43_arith8.md R303). -/
  | sbcAAtIY (disp : Byte)
  /-- `AND r` (43_arith8.md R304). -/
  | andR (src : Reg8)
  /-- `AND n` (43_arith8.md R305). -/
  | andN (n : Byte)
  /-- `AND (HL)` (43_arith8.md R306). -/
  | andAtHL
  /-- `AND (IX+d)` (43_arith8.md R307). -/
  | andAtIX (disp : Byte)
  /-- `AND (IY+d)` (43_arith8.md R308). -/
  | andAtIY (disp : Byte)
  /-- `OR r` (43_arith8.md R309). -/
  | orR (src : Reg8)
  /-- `OR n` (43_arith8.md R310). -/
  | orN (n : Byte)
  /-- `OR (HL)` (43_arith8.md R311). -/
  | orAtHL
  /-- `OR (IX+d)` (43_arith8.md R312). -/
  | orAtIX (disp : Byte)
  /-- `OR (IY+d)` (43_arith8.md R313). -/
  | orAtIY (disp : Byte)
  /-- `XOR r` (43_arith8.md R314). -/
  | xorR (src : Reg8)
  /-- `XOR n` (43_arith8.md R315). -/
  | xorN (n : Byte)
  /-- `XOR (HL)` (43_arith8.md R316). -/
  | xorAtHL
  /-- `XOR (IX+d)` (43_arith8.md R317). -/
  | xorAtIX (disp : Byte)
  /-- `XOR (IY+d)` (43_arith8.md R318). -/
  | xorAtIY (disp : Byte)
  /-- `CP r` (43_arith8.md R319). -/
  | cpR (src : Reg8)
  /-- `CP n` (43_arith8.md R320). -/
  | cpN (n : Byte)
  /-- `CP (HL)` (43_arith8.md R321). -/
  | cpAtHL
  /-- `CP (IX+d)` (43_arith8.md R322). -/
  | cpAtIX (disp : Byte)
  /-- `CP (IY+d)` (43_arith8.md R323). -/
  | cpAtIY (disp : Byte)
  /-- `INC r` (43_arith8.md R324). -/
  | incR (dst : Reg8)
  /-- `INC (HL)` (43_arith8.md R325). -/
  | incAtHL
  /-- `INC (IX+d)` (43_arith8.md R326). -/
  | incAtIX (disp : Byte)
  /-- `INC (IY+d)` (43_arith8.md R327). -/
  | incAtIY (disp : Byte)
  /-- `DEC r` (43_arith8.md R328). -/
  | decR (dst : Reg8)
  /-- `DEC (HL)` (43_arith8.md R329). -/
  | decAtHL
  /-- `DEC (IX+d)` (43_arith8.md R330). -/
  | decAtIX (disp : Byte)
  /-- `DEC (IY+d)` (43_arith8.md R331). -/
  | decAtIY (disp : Byte)
  /-- `DAA` (44_general_cpu.md R340). -/
  | daa
  /-- `CPL` (44_general_cpu.md R341). -/
  | cpl
  /-- `NEG` (44_general_cpu.md R342). -/
  | neg
  /-- `CCF` (44_general_cpu.md R343). -/
  | ccf
  /-- `SCF` (44_general_cpu.md R344). -/
  | scf
  /-- `NOP` (44_general_cpu.md R345). -/
  | nop
  /-- `HALT` (44_general_cpu.md R346). -/
  | halt
  /-- `DI` (44_general_cpu.md R347). -/
  | di
  /-- `EI` (44_general_cpu.md R348). -/
  | ei
  /-- `IM 0` (44_general_cpu.md R349). -/
  | im0
  /-- `IM 1` (44_general_cpu.md R350). -/
  | im1
  /-- `IM 2` (44_general_cpu.md R351). -/
  | im2
  /-- `ADD HL,ss` (45_arith16.md R360). -/
  | addHLSS (ss : Reg16)
  /-- `ADC HL,ss` (45_arith16.md R361). -/
  | adcHLSS (ss : Reg16)
  /-- `SBC HL,ss` (45_arith16.md R362). -/
  | sbcHLSS (ss : Reg16)
  /-- `ADD IX,pp` (45_arith16.md R363). -/
  | addIXPP (pp : Reg16IX)
  /-- `ADD IY,rr` (45_arith16.md R364). -/
  | addIYRR (rr : Reg16IY)
  /-- `INC ss` (45_arith16.md R365). -/
  | incSS (ss : Reg16)
  /-- `INC IX` (45_arith16.md R366). -/
  | incIX
  /-- `INC IY` (45_arith16.md R367). -/
  | incIY
  /-- `DEC ss` (45_arith16.md R368). -/
  | decSS (ss : Reg16)
  /-- `DEC IX` (45_arith16.md R369). -/
  | decIX
  /-- `DEC IY` (45_arith16.md R370). -/
  | decIY
  /-- `RLCA` (46_rotate_shift.md R382). -/
  | rlca
  /-- `RLA` (46_rotate_shift.md R383). -/
  | rla
  /-- `RRCA` (46_rotate_shift.md R384). -/
  | rrca
  /-- `RRA` (46_rotate_shift.md R385). -/
  | rra
  /-- `RLC r` (46_rotate_shift.md R386). -/
  | rlcR (dst : Reg8)
  /-- `RLC (HL)` (46_rotate_shift.md R387). -/
  | rlcAtHL
  /-- `RLC (IX+d)` (46_rotate_shift.md R388). -/
  | rlcAtIX (disp : Byte)
  /-- `RLC (IY+d)` (46_rotate_shift.md R389). -/
  | rlcAtIY (disp : Byte)
  /-- `RL r` (46_rotate_shift.md R390). -/
  | rlR (dst : Reg8)
  /-- `RL (HL)` (46_rotate_shift.md R391). -/
  | rlAtHL
  /-- `RL (IX+d)` (46_rotate_shift.md R392). -/
  | rlAtIX (disp : Byte)
  /-- `RL (IY+d)` (46_rotate_shift.md R393). -/
  | rlAtIY (disp : Byte)
  /-- `RRC r` (46_rotate_shift.md R394). -/
  | rrcR (dst : Reg8)
  /-- `RRC (HL)` (46_rotate_shift.md R395). -/
  | rrcAtHL
  /-- `RRC (IX+d)` (46_rotate_shift.md R396). -/
  | rrcAtIX (disp : Byte)
  /-- `RRC (IY+d)` (46_rotate_shift.md R397). -/
  | rrcAtIY (disp : Byte)
  /-- `RR r` (46_rotate_shift.md R398). -/
  | rrR (dst : Reg8)
  /-- `RR (HL)` (46_rotate_shift.md R399). -/
  | rrAtHL
  /-- `RR (IX+d)` (46_rotate_shift.md R400). -/
  | rrAtIX (disp : Byte)
  /-- `RR (IY+d)` (46_rotate_shift.md R401). -/
  | rrAtIY (disp : Byte)
  /-- `SLA r` (46_rotate_shift.md R402). -/
  | slaR (dst : Reg8)
  /-- `SLA (HL)` (46_rotate_shift.md R403). -/
  | slaAtHL
  /-- `SLA (IX+d)` (46_rotate_shift.md R404). -/
  | slaAtIX (disp : Byte)
  /-- `SLA (IY+d)` (46_rotate_shift.md R405). -/
  | slaAtIY (disp : Byte)
  /-- `SRA r` (46_rotate_shift.md R406). -/
  | sraR (dst : Reg8)
  /-- `SRA (HL)` (46_rotate_shift.md R407). -/
  | sraAtHL
  /-- `SRA (IX+d)` (46_rotate_shift.md R408). -/
  | sraAtIX (disp : Byte)
  /-- `SRA (IY+d)` (46_rotate_shift.md R409). -/
  | sraAtIY (disp : Byte)
  /-- `SRL r` (46_rotate_shift.md R410). -/
  | srlR (dst : Reg8)
  /-- `SRL (HL)` (46_rotate_shift.md R411). -/
  | srlAtHL
  /-- `SRL (IX+d)` (46_rotate_shift.md R412). -/
  | srlAtIX (disp : Byte)
  /-- `SRL (IY+d)` (46_rotate_shift.md R413). -/
  | srlAtIY (disp : Byte)
  /-- `RLD` (46_rotate_shift.md R414). -/
  | rld
  /-- `RRD` (46_rotate_shift.md R415). -/
  | rrd
  /-- `BIT b,r` (47_bit.md R420). -/
  | bitBR (bit : Nat) (src : Reg8)
  /-- `BIT b,(HL)` (47_bit.md R421). -/
  | bitBAtHL (bit : Nat)
  /-- `BIT b,(IX+d)` (47_bit.md R422). -/
  | bitBAtIX (bit : Nat) (disp : Byte)
  /-- `BIT b,(IY+d)` (47_bit.md R423). -/
  | bitBAtIY (bit : Nat) (disp : Byte)
  /-- `SET b,r` (47_bit.md R424). -/
  | setBR (bit : Nat) (dst : Reg8)
  /-- `SET b,(HL)` (47_bit.md R425). -/
  | setBAtHL (bit : Nat)
  /-- `SET b,(IX+d)` (47_bit.md R426). -/
  | setBAtIX (bit : Nat) (disp : Byte)
  /-- `SET b,(IY+d)` (47_bit.md R427). -/
  | setBAtIY (bit : Nat) (disp : Byte)
  /-- `RES b,r` (47_bit.md R428). -/
  | resBR (bit : Nat) (dst : Reg8)
  /-- `RES b,(HL)` (47_bit.md R429). -/
  | resBAtHL (bit : Nat)
  /-- `RES b,(IX+d)` (47_bit.md R430). -/
  | resBAtIX (bit : Nat) (disp : Byte)
  /-- `RES b,(IY+d)` (47_bit.md R431). -/
  | resBAtIY (bit : Nat) (disp : Byte)
  /-- `JP nn` (48_jump_call.md R440). -/
  | jpNN (nn : Word)
  /-- `JP cc,nn` (48_jump_call.md R441). -/
  | jpCCNN (cc : Cond) (nn : Word)
  /-- `JR e` (48_jump_call.md R442). -/
  | jr (e : Byte)
  /-- `JR C,e` (48_jump_call.md R443). -/
  | jrC (e : Byte)
  /-- `JR NC,e` (48_jump_call.md R444). -/
  | jrNC (e : Byte)
  /-- `JR Z,e` (48_jump_call.md R445). -/
  | jrZ (e : Byte)
  /-- `JR NZ,e` (48_jump_call.md R446). -/
  | jrNZ (e : Byte)
  /-- `JP (HL)` (48_jump_call.md R447). -/
  | jpHL
  /-- `JP (IX)` (48_jump_call.md R448). -/
  | jpIX
  /-- `JP (IY)` (48_jump_call.md R449). -/
  | jpIY
  /-- `DJNZ e` (48_jump_call.md R450). -/
  | djnz (e : Byte)
  /-- `CALL nn` (48_jump_call.md R451). -/
  | callNN (nn : Word)
  /-- `CALL cc,nn` (48_jump_call.md R452). -/
  | callCCNN (cc : Cond) (nn : Word)
  /-- `RET` (48_jump_call.md R453). -/
  | ret
  /-- `RET cc` (48_jump_call.md R454). -/
  | retCC (cc : Cond)
  /-- `RETI` (48_jump_call.md R455). -/
  | reti
  /-- `RETN` (48_jump_call.md R456). -/
  | retn
  /-- `RST p` (48_jump_call.md R457). -/
  | rst (target : Word)
  /-- `IN A,(n)` (49_io.md R470). -/
  | inAN (n : Byte)
  /-- `IN r,(C)` (49_io.md R471). -/
  | inRC (dst : Reg8)
  /-- `INI` (49_io.md R472). -/
  | ini
  /-- `INIR` (49_io.md R473). -/
  | inir
  /-- `IND` (49_io.md R474). -/
  | ind
  /-- `INDR` (49_io.md R475). -/
  | indr
  /-- `OUT (n),A` (49_io.md R476). -/
  | outNA (n : Byte)
  /-- `OUT (C),r` (49_io.md R477). -/
  | outCR (src : Reg8)
  /-- `OUTI` (49_io.md R478). -/
  | outi
  /-- `OTIR` (49_io.md R479). -/
  | otir
  /-- `OUTD` (49_io.md R480). -/
  | outd
  /-- `OTDR` (49_io.md R481). -/
  | otdr
  deriving DecidableEq, Repr, Inhabited

end Sys2Proof
end

