-- ==== Sys2Proof/WellFormed.lean ====
section
/-! DEFINITION. Which instruction terms exist: a bit number is 0 to 7 and a restart target is `8 * ttt`
(30_encoding.md R142, R155). Every other operand is well formed by its type. -/

namespace Sys2Proof

/-- A field `bbb` holds 0 to 7 (30_encoding.md R142). -/
def bitNumberOk (bit : Nat) : Bool := bit < 8

/-- A restart target is one of the eight addresses `8 * ttt` (20_memory.md R103). -/
def restartOk (target : Word) : Bool := target &&& 0x0038#16 == target

/-- The instruction has an encoding. -/
def Instr.wf : Instr → Bool
  | .ldRR _ _ => true
  | .ldRN _ _ => true
  | .ldRAtHL _ => true
  | .ldRAtIX _ _ => true
  | .ldRAtIY _ _ => true
  | .ldAtHLR _ => true
  | .ldAtIXR _ _ => true
  | .ldAtIYR _ _ => true
  | .ldAtHLN _ => true
  | .ldAtIXN _ _ => true
  | .ldAtIYN _ _ => true
  | .ldAAtBC => true
  | .ldAAtDE => true
  | .ldAAtNN _ => true
  | .ldAtBCA => true
  | .ldAtDEA => true
  | .ldAtNNA _ => true
  | .ldAI => true
  | .ldARefresh => true
  | .ldIA => true
  | .ldRefreshA => true
  | .ldDDNN _ _ => true
  | .ldIXNN _ => true
  | .ldIYNN _ => true
  | .ldHLAtNN _ => true
  | .ldDDAtNN _ _ => true
  | .ldIXAtNN _ => true
  | .ldIYAtNN _ => true
  | .ldAtNNHL _ => true
  | .ldAtNNDD _ _ => true
  | .ldAtNNIX _ => true
  | .ldAtNNIY _ => true
  | .ldSPHL => true
  | .ldSPIX => true
  | .ldSPIY => true
  | .pushQQ _ => true
  | .pushIX => true
  | .pushIY => true
  | .popQQ _ => true
  | .popIX => true
  | .popIY => true
  | .exDEHL => true
  | .exAFAF => true
  | .exx => true
  | .exAtSPHL => true
  | .exAtSPIX => true
  | .exAtSPIY => true
  | .ldi => true
  | .ldir => true
  | .ldd => true
  | .lddr => true
  | .cpi => true
  | .cpir => true
  | .cpd => true
  | .cpdr => true
  | .addAR _ => true
  | .addAN _ => true
  | .addAAtHL => true
  | .addAAtIX _ => true
  | .addAAtIY _ => true
  | .adcAR _ => true
  | .adcAN _ => true
  | .adcAAtHL => true
  | .adcAAtIX _ => true
  | .adcAAtIY _ => true
  | .subR _ => true
  | .subN _ => true
  | .subAtHL => true
  | .subAtIX _ => true
  | .subAtIY _ => true
  | .sbcAR _ => true
  | .sbcAN _ => true
  | .sbcAAtHL => true
  | .sbcAAtIX _ => true
  | .sbcAAtIY _ => true
  | .andR _ => true
  | .andN _ => true
  | .andAtHL => true
  | .andAtIX _ => true
  | .andAtIY _ => true
  | .orR _ => true
  | .orN _ => true
  | .orAtHL => true
  | .orAtIX _ => true
  | .orAtIY _ => true
  | .xorR _ => true
  | .xorN _ => true
  | .xorAtHL => true
  | .xorAtIX _ => true
  | .xorAtIY _ => true
  | .cpR _ => true
  | .cpN _ => true
  | .cpAtHL => true
  | .cpAtIX _ => true
  | .cpAtIY _ => true
  | .incR _ => true
  | .incAtHL => true
  | .incAtIX _ => true
  | .incAtIY _ => true
  | .decR _ => true
  | .decAtHL => true
  | .decAtIX _ => true
  | .decAtIY _ => true
  | .daa => true
  | .cpl => true
  | .neg => true
  | .ccf => true
  | .scf => true
  | .nop => true
  | .halt => true
  | .di => true
  | .ei => true
  | .im0 => true
  | .im1 => true
  | .im2 => true
  | .addHLSS _ => true
  | .adcHLSS _ => true
  | .sbcHLSS _ => true
  | .addIXPP _ => true
  | .addIYRR _ => true
  | .incSS _ => true
  | .incIX => true
  | .incIY => true
  | .decSS _ => true
  | .decIX => true
  | .decIY => true
  | .rlca => true
  | .rla => true
  | .rrca => true
  | .rra => true
  | .rlcR _ => true
  | .rlcAtHL => true
  | .rlcAtIX _ => true
  | .rlcAtIY _ => true
  | .rlR _ => true
  | .rlAtHL => true
  | .rlAtIX _ => true
  | .rlAtIY _ => true
  | .rrcR _ => true
  | .rrcAtHL => true
  | .rrcAtIX _ => true
  | .rrcAtIY _ => true
  | .rrR _ => true
  | .rrAtHL => true
  | .rrAtIX _ => true
  | .rrAtIY _ => true
  | .slaR _ => true
  | .slaAtHL => true
  | .slaAtIX _ => true
  | .slaAtIY _ => true
  | .sraR _ => true
  | .sraAtHL => true
  | .sraAtIX _ => true
  | .sraAtIY _ => true
  | .srlR _ => true
  | .srlAtHL => true
  | .srlAtIX _ => true
  | .srlAtIY _ => true
  | .rld => true
  | .rrd => true
  | .bitBR bit _ => bitNumberOk bit
  | .bitBAtHL bit => bitNumberOk bit
  | .bitBAtIX bit _ => bitNumberOk bit
  | .bitBAtIY bit _ => bitNumberOk bit
  | .setBR bit _ => bitNumberOk bit
  | .setBAtHL bit => bitNumberOk bit
  | .setBAtIX bit _ => bitNumberOk bit
  | .setBAtIY bit _ => bitNumberOk bit
  | .resBR bit _ => bitNumberOk bit
  | .resBAtHL bit => bitNumberOk bit
  | .resBAtIX bit _ => bitNumberOk bit
  | .resBAtIY bit _ => bitNumberOk bit
  | .jpNN _ => true
  | .jpCCNN _ _ => true
  | .jr _ => true
  | .jrC _ => true
  | .jrNC _ => true
  | .jrZ _ => true
  | .jrNZ _ => true
  | .jpHL => true
  | .jpIX => true
  | .jpIY => true
  | .djnz _ => true
  | .callNN _ => true
  | .callCCNN _ _ => true
  | .ret => true
  | .retCC _ => true
  | .reti => true
  | .retn => true
  | .rst target => restartOk target
  | .inAN _ => true
  | .inRC _ => true
  | .ini => true
  | .inir => true
  | .ind => true
  | .indr => true
  | .outNA _ => true
  | .outCR _ => true
  | .outi => true
  | .otir => true
  | .outd => true
  | .otdr => true

end Sys2Proof
end

