-- ==== Sys2Proof/Decode.lean ====
section
/-! DEFINITION. Decoding and encoding (30_encoding.md R140 to R164). The decoder is total on every list of bytes
and refuses by name; its rows are those of spec/opcode_table.json, sorted into the seven tables of R147 to R154.
After it comes the encoder, written from the bit patterns of the instruction rules. -/

namespace Sys2Proof

/-! ### Bytes and words -/

/-- The word with high byte `hi` and low byte `lo` (00_scope.md R10, `hi : lo`). -/
def wordOf (hi lo : Byte) : Word := hi ++ lo

/-- Bits 15:8 of a word. -/
def hiByte (w : Word) : Byte := w.extractLsb' 8 8

/-- Bits 7:0 of a word. -/
def loByte (w : Word) : Byte := w.extractLsb' 0 8

/-- The bit field `op[hi:lo]` (00_scope.md R10). -/
def field (op : Byte) (hi lo : Nat) : Nat := op.toNat / 2 ^ lo % 2 ^ (hi + 1 - lo)

/-! ### Operand codes (30_encoding.md R143, R144) -/

/-- Table `R8`; code 6 is no register. -/
def Reg8.ofCode : Nat → Option Reg8
  | 0 => some .b
  | 1 => some .c
  | 2 => some .d
  | 3 => some .e
  | 4 => some .h
  | 5 => some .l
  | 7 => some .a
  | _ => none

/-- Table `R8`. -/
def Reg8.code : Reg8 → Nat
  | .b => 0
  | .c => 1
  | .d => 2
  | .e => 3
  | .h => 4
  | .l => 5
  | .a => 7

/-- Table `R16`. -/
def Reg16.ofCode : Nat → Option Reg16
  | 0 => some .bc
  | 1 => some .de
  | 2 => some .hl
  | 3 => some .sp
  | _ => none

/-- Table `R16`. -/
def Reg16.code : Reg16 → Nat
  | .bc => 0
  | .de => 1
  | .hl => 2
  | .sp => 3

/-- Table `R16AF`. -/
def Reg16AF.ofCode : Nat → Option Reg16AF
  | 0 => some .bc
  | 1 => some .de
  | 2 => some .hl
  | 3 => some .af
  | _ => none

/-- Table `R16AF`. -/
def Reg16AF.code : Reg16AF → Nat
  | .bc => 0
  | .de => 1
  | .hl => 2
  | .af => 3

/-- Table `R16IX`. -/
def Reg16IX.ofCode : Nat → Option Reg16IX
  | 0 => some .bc
  | 1 => some .de
  | 2 => some .ix
  | 3 => some .sp
  | _ => none

/-- Table `R16IX`. -/
def Reg16IX.code : Reg16IX → Nat
  | .bc => 0
  | .de => 1
  | .ix => 2
  | .sp => 3

/-- Table `R16IY`. -/
def Reg16IY.ofCode : Nat → Option Reg16IY
  | 0 => some .bc
  | 1 => some .de
  | 2 => some .iy
  | 3 => some .sp
  | _ => none

/-- Table `R16IY`. -/
def Reg16IY.code : Reg16IY → Nat
  | .bc => 0
  | .de => 1
  | .iy => 2
  | .sp => 3

/-- Table `CC`. -/
def Cond.ofCode : Nat → Option Cond
  | 0 => some .nz
  | 1 => some .z
  | 2 => some .nc
  | 3 => some .c
  | 4 => some .po
  | 5 => some .pe
  | 6 => some .p
  | 7 => some .m
  | _ => none

/-- Table `CC`. -/
def Cond.code : Cond → Nat
  | .nz => 0
  | .z => 1
  | .nc => 2
  | .c => 3
  | .po => 4
  | .pe => 5
  | .p => 6
  | .m => 7

/-! ### The rows of the opcode tables -/

/-- What an opcode byte still needs: the operand bytes that follow it (30_encoding.md R141). -/
inductive Shape where
  /-- No operand byte. -/
  | done (i : Instr)
  /-- One byte: `n`, `d` or `e`. -/
  | byte (f : Byte → Instr)
  /-- Two bytes `nl`, `nh`: the word `nn`. -/
  | word (f : Word → Instr)
  /-- Two bytes: `d`, then `n`. -/
  | dispByte (f : Byte → Byte → Instr)

/-- How many operand bytes follow the opcode byte. -/
def Shape.operands : Shape → Nat
  | .done _ => 0
  | .byte _ => 1
  | .word _ => 2
  | .dispByte _ => 2

/-- One row: the opcode bytes `op` with `op AND mask = pattern` and no excluded field (30_encoding.md R157). -/
structure Row (α : Type) where
  mask    : Byte
  pattern : Byte
  make    : Byte → Option α

/-- The row answers for this opcode byte. -/
def Row.read {α : Type} (row : Row α) (op : Byte) : Option α :=
  if op &&& row.mask = row.pattern then row.make op else none

/-- The entry of a table for an opcode byte; none where the cell is undefined. -/
def lookup {α : Type} (rows : List (Row α)) (op : Byte) : Option α := rows.findSome? (fun row => row.read op)

/-- Main table: byte 1 (30_encoding.md R147). -/
def mainRows : List (Row Shape) :=
  [ ⟨0xC0#8, 0x40#8, fun op => (Reg8.ofCode (field op 5 3)).bind fun dst => (Reg8.ofCode (field op 2 0)).bind fun src => some (.done (.ldRR dst src))⟩,
    ⟨0xC7#8, 0x06#8, fun op => (Reg8.ofCode (field op 5 3)).bind fun dst => some (.byte fun n => .ldRN dst n)⟩,
    ⟨0xC7#8, 0x46#8, fun op => (Reg8.ofCode (field op 5 3)).bind fun dst => some (.done (.ldRAtHL dst))⟩,
    ⟨0xF8#8, 0x70#8, fun op => (Reg8.ofCode (field op 2 0)).bind fun src => some (.done (.ldAtHLR src))⟩,
    ⟨0xFF#8, 0x36#8, fun _ => some (.byte fun n => .ldAtHLN n)⟩,
    ⟨0xFF#8, 0x0A#8, fun _ => some (.done .ldAAtBC)⟩,
    ⟨0xFF#8, 0x1A#8, fun _ => some (.done .ldAAtDE)⟩,
    ⟨0xFF#8, 0x3A#8, fun _ => some (.word fun nn => .ldAAtNN nn)⟩,
    ⟨0xFF#8, 0x02#8, fun _ => some (.done .ldAtBCA)⟩,
    ⟨0xFF#8, 0x12#8, fun _ => some (.done .ldAtDEA)⟩,
    ⟨0xFF#8, 0x32#8, fun _ => some (.word fun nn => .ldAtNNA nn)⟩,
    ⟨0xCF#8, 0x01#8, fun op => (Reg16.ofCode (field op 5 4)).bind fun dd => some (.word fun nn => .ldDDNN dd nn)⟩,
    ⟨0xFF#8, 0x2A#8, fun _ => some (.word fun nn => .ldHLAtNN nn)⟩,
    ⟨0xFF#8, 0x22#8, fun _ => some (.word fun nn => .ldAtNNHL nn)⟩,
    ⟨0xFF#8, 0xF9#8, fun _ => some (.done .ldSPHL)⟩,
    ⟨0xCF#8, 0xC5#8, fun op => (Reg16AF.ofCode (field op 5 4)).bind fun qq => some (.done (.pushQQ qq))⟩,
    ⟨0xCF#8, 0xC1#8, fun op => (Reg16AF.ofCode (field op 5 4)).bind fun qq => some (.done (.popQQ qq))⟩,
    ⟨0xFF#8, 0xEB#8, fun _ => some (.done .exDEHL)⟩,
    ⟨0xFF#8, 0x08#8, fun _ => some (.done .exAFAF)⟩,
    ⟨0xFF#8, 0xD9#8, fun _ => some (.done .exx)⟩ ] ++
  [ ⟨0xFF#8, 0xE3#8, fun _ => some (.done .exAtSPHL)⟩,
    ⟨0xF8#8, 0x80#8, fun op => (Reg8.ofCode (field op 2 0)).bind fun src => some (.done (.addAR src))⟩,
    ⟨0xFF#8, 0xC6#8, fun _ => some (.byte fun n => .addAN n)⟩,
    ⟨0xFF#8, 0x86#8, fun _ => some (.done .addAAtHL)⟩,
    ⟨0xF8#8, 0x88#8, fun op => (Reg8.ofCode (field op 2 0)).bind fun src => some (.done (.adcAR src))⟩,
    ⟨0xFF#8, 0xCE#8, fun _ => some (.byte fun n => .adcAN n)⟩,
    ⟨0xFF#8, 0x8E#8, fun _ => some (.done .adcAAtHL)⟩,
    ⟨0xF8#8, 0x90#8, fun op => (Reg8.ofCode (field op 2 0)).bind fun src => some (.done (.subR src))⟩,
    ⟨0xFF#8, 0xD6#8, fun _ => some (.byte fun n => .subN n)⟩,
    ⟨0xFF#8, 0x96#8, fun _ => some (.done .subAtHL)⟩,
    ⟨0xF8#8, 0x98#8, fun op => (Reg8.ofCode (field op 2 0)).bind fun src => some (.done (.sbcAR src))⟩,
    ⟨0xFF#8, 0xDE#8, fun _ => some (.byte fun n => .sbcAN n)⟩,
    ⟨0xFF#8, 0x9E#8, fun _ => some (.done .sbcAAtHL)⟩,
    ⟨0xF8#8, 0xA0#8, fun op => (Reg8.ofCode (field op 2 0)).bind fun src => some (.done (.andR src))⟩,
    ⟨0xFF#8, 0xE6#8, fun _ => some (.byte fun n => .andN n)⟩,
    ⟨0xFF#8, 0xA6#8, fun _ => some (.done .andAtHL)⟩,
    ⟨0xF8#8, 0xB0#8, fun op => (Reg8.ofCode (field op 2 0)).bind fun src => some (.done (.orR src))⟩,
    ⟨0xFF#8, 0xF6#8, fun _ => some (.byte fun n => .orN n)⟩,
    ⟨0xFF#8, 0xB6#8, fun _ => some (.done .orAtHL)⟩,
    ⟨0xF8#8, 0xA8#8, fun op => (Reg8.ofCode (field op 2 0)).bind fun src => some (.done (.xorR src))⟩ ] ++
  [ ⟨0xFF#8, 0xEE#8, fun _ => some (.byte fun n => .xorN n)⟩,
    ⟨0xFF#8, 0xAE#8, fun _ => some (.done .xorAtHL)⟩,
    ⟨0xF8#8, 0xB8#8, fun op => (Reg8.ofCode (field op 2 0)).bind fun src => some (.done (.cpR src))⟩,
    ⟨0xFF#8, 0xFE#8, fun _ => some (.byte fun n => .cpN n)⟩,
    ⟨0xFF#8, 0xBE#8, fun _ => some (.done .cpAtHL)⟩,
    ⟨0xC7#8, 0x04#8, fun op => (Reg8.ofCode (field op 5 3)).bind fun dst => some (.done (.incR dst))⟩,
    ⟨0xFF#8, 0x34#8, fun _ => some (.done .incAtHL)⟩,
    ⟨0xC7#8, 0x05#8, fun op => (Reg8.ofCode (field op 5 3)).bind fun dst => some (.done (.decR dst))⟩,
    ⟨0xFF#8, 0x35#8, fun _ => some (.done .decAtHL)⟩,
    ⟨0xFF#8, 0x27#8, fun _ => some (.done .daa)⟩,
    ⟨0xFF#8, 0x2F#8, fun _ => some (.done .cpl)⟩,
    ⟨0xFF#8, 0x3F#8, fun _ => some (.done .ccf)⟩,
    ⟨0xFF#8, 0x37#8, fun _ => some (.done .scf)⟩,
    ⟨0xFF#8, 0x00#8, fun _ => some (.done .nop)⟩,
    ⟨0xFF#8, 0x76#8, fun _ => some (.done .halt)⟩,
    ⟨0xFF#8, 0xF3#8, fun _ => some (.done .di)⟩,
    ⟨0xFF#8, 0xFB#8, fun _ => some (.done .ei)⟩,
    ⟨0xCF#8, 0x09#8, fun op => (Reg16.ofCode (field op 5 4)).bind fun ss => some (.done (.addHLSS ss))⟩,
    ⟨0xCF#8, 0x03#8, fun op => (Reg16.ofCode (field op 5 4)).bind fun ss => some (.done (.incSS ss))⟩,
    ⟨0xCF#8, 0x0B#8, fun op => (Reg16.ofCode (field op 5 4)).bind fun ss => some (.done (.decSS ss))⟩ ] ++
  [ ⟨0xFF#8, 0x07#8, fun _ => some (.done .rlca)⟩,
    ⟨0xFF#8, 0x17#8, fun _ => some (.done .rla)⟩,
    ⟨0xFF#8, 0x0F#8, fun _ => some (.done .rrca)⟩,
    ⟨0xFF#8, 0x1F#8, fun _ => some (.done .rra)⟩,
    ⟨0xFF#8, 0xC3#8, fun _ => some (.word fun nn => .jpNN nn)⟩,
    ⟨0xC7#8, 0xC2#8, fun op => (Cond.ofCode (field op 5 3)).bind fun cc => some (.word fun nn => .jpCCNN cc nn)⟩,
    ⟨0xFF#8, 0x18#8, fun _ => some (.byte fun e => .jr e)⟩,
    ⟨0xFF#8, 0x38#8, fun _ => some (.byte fun e => .jrC e)⟩,
    ⟨0xFF#8, 0x30#8, fun _ => some (.byte fun e => .jrNC e)⟩,
    ⟨0xFF#8, 0x28#8, fun _ => some (.byte fun e => .jrZ e)⟩,
    ⟨0xFF#8, 0x20#8, fun _ => some (.byte fun e => .jrNZ e)⟩,
    ⟨0xFF#8, 0xE9#8, fun _ => some (.done .jpHL)⟩,
    ⟨0xFF#8, 0x10#8, fun _ => some (.byte fun e => .djnz e)⟩,
    ⟨0xFF#8, 0xCD#8, fun _ => some (.word fun nn => .callNN nn)⟩,
    ⟨0xC7#8, 0xC4#8, fun op => (Cond.ofCode (field op 5 3)).bind fun cc => some (.word fun nn => .callCCNN cc nn)⟩,
    ⟨0xFF#8, 0xC9#8, fun _ => some (.done .ret)⟩,
    ⟨0xC7#8, 0xC0#8, fun op => (Cond.ofCode (field op 5 3)).bind fun cc => some (.done (.retCC cc))⟩,
    ⟨0xC7#8, 0xC7#8, fun op => some (.done (.rst ((op &&& 0x38#8).setWidth 16)))⟩,
    ⟨0xFF#8, 0xDB#8, fun _ => some (.byte fun n => .inAN n)⟩,
    ⟨0xFF#8, 0xD3#8, fun _ => some (.byte fun n => .outNA n)⟩ ]

/-- CB table: byte 2 after 0xCB (R148). -/
def cbRows : List (Row Shape) :=
  [ ⟨0xF8#8, 0x00#8, fun op => (Reg8.ofCode (field op 2 0)).bind fun dst => some (.done (.rlcR dst))⟩,
    ⟨0xFF#8, 0x06#8, fun _ => some (.done .rlcAtHL)⟩,
    ⟨0xF8#8, 0x10#8, fun op => (Reg8.ofCode (field op 2 0)).bind fun dst => some (.done (.rlR dst))⟩,
    ⟨0xFF#8, 0x16#8, fun _ => some (.done .rlAtHL)⟩,
    ⟨0xF8#8, 0x08#8, fun op => (Reg8.ofCode (field op 2 0)).bind fun dst => some (.done (.rrcR dst))⟩,
    ⟨0xFF#8, 0x0E#8, fun _ => some (.done .rrcAtHL)⟩,
    ⟨0xF8#8, 0x18#8, fun op => (Reg8.ofCode (field op 2 0)).bind fun dst => some (.done (.rrR dst))⟩,
    ⟨0xFF#8, 0x1E#8, fun _ => some (.done .rrAtHL)⟩,
    ⟨0xF8#8, 0x20#8, fun op => (Reg8.ofCode (field op 2 0)).bind fun dst => some (.done (.slaR dst))⟩,
    ⟨0xFF#8, 0x26#8, fun _ => some (.done .slaAtHL)⟩,
    ⟨0xF8#8, 0x28#8, fun op => (Reg8.ofCode (field op 2 0)).bind fun dst => some (.done (.sraR dst))⟩,
    ⟨0xFF#8, 0x2E#8, fun _ => some (.done .sraAtHL)⟩,
    ⟨0xF8#8, 0x38#8, fun op => (Reg8.ofCode (field op 2 0)).bind fun dst => some (.done (.srlR dst))⟩,
    ⟨0xFF#8, 0x3E#8, fun _ => some (.done .srlAtHL)⟩,
    ⟨0xC0#8, 0x40#8, fun op => (Reg8.ofCode (field op 2 0)).bind fun src => some (.done (.bitBR (field op 5 3) src))⟩,
    ⟨0xC7#8, 0x46#8, fun op => some (.done (.bitBAtHL (field op 5 3)))⟩,
    ⟨0xC0#8, 0xC0#8, fun op => (Reg8.ofCode (field op 2 0)).bind fun dst => some (.done (.setBR (field op 5 3) dst))⟩,
    ⟨0xC7#8, 0xC6#8, fun op => some (.done (.setBAtHL (field op 5 3)))⟩,
    ⟨0xC0#8, 0x80#8, fun op => (Reg8.ofCode (field op 2 0)).bind fun dst => some (.done (.resBR (field op 5 3) dst))⟩,
    ⟨0xC7#8, 0x86#8, fun op => some (.done (.resBAtHL (field op 5 3)))⟩ ]

/-- ED table: byte 2 after 0xED (R149). -/
def edRows : List (Row Shape) :=
  [ ⟨0xFF#8, 0x57#8, fun _ => some (.done .ldAI)⟩,
    ⟨0xFF#8, 0x5F#8, fun _ => some (.done .ldARefresh)⟩,
    ⟨0xFF#8, 0x47#8, fun _ => some (.done .ldIA)⟩,
    ⟨0xFF#8, 0x4F#8, fun _ => some (.done .ldRefreshA)⟩,
    ⟨0xCF#8, 0x4B#8, fun op => (Reg16.ofCode (field op 5 4)).bind fun dd => some (.word fun nn => .ldDDAtNN dd nn)⟩,
    ⟨0xCF#8, 0x43#8, fun op => (Reg16.ofCode (field op 5 4)).bind fun dd => some (.word fun nn => .ldAtNNDD nn dd)⟩,
    ⟨0xFF#8, 0xA0#8, fun _ => some (.done .ldi)⟩,
    ⟨0xFF#8, 0xB0#8, fun _ => some (.done .ldir)⟩,
    ⟨0xFF#8, 0xA8#8, fun _ => some (.done .ldd)⟩,
    ⟨0xFF#8, 0xB8#8, fun _ => some (.done .lddr)⟩,
    ⟨0xFF#8, 0xA1#8, fun _ => some (.done .cpi)⟩,
    ⟨0xFF#8, 0xB1#8, fun _ => some (.done .cpir)⟩,
    ⟨0xFF#8, 0xA9#8, fun _ => some (.done .cpd)⟩,
    ⟨0xFF#8, 0xB9#8, fun _ => some (.done .cpdr)⟩,
    ⟨0xFF#8, 0x44#8, fun _ => some (.done .neg)⟩,
    ⟨0xFF#8, 0x46#8, fun _ => some (.done .im0)⟩,
    ⟨0xFF#8, 0x56#8, fun _ => some (.done .im1)⟩,
    ⟨0xFF#8, 0x5E#8, fun _ => some (.done .im2)⟩,
    ⟨0xCF#8, 0x4A#8, fun op => (Reg16.ofCode (field op 5 4)).bind fun ss => some (.done (.adcHLSS ss))⟩,
    ⟨0xCF#8, 0x42#8, fun op => (Reg16.ofCode (field op 5 4)).bind fun ss => some (.done (.sbcHLSS ss))⟩ ] ++
  [ ⟨0xFF#8, 0x6F#8, fun _ => some (.done .rld)⟩,
    ⟨0xFF#8, 0x67#8, fun _ => some (.done .rrd)⟩,
    ⟨0xFF#8, 0x4D#8, fun _ => some (.done .reti)⟩,
    ⟨0xFF#8, 0x45#8, fun _ => some (.done .retn)⟩,
    ⟨0xC7#8, 0x40#8, fun op => (Reg8.ofCode (field op 5 3)).bind fun dst => some (.done (.inRC dst))⟩,
    ⟨0xFF#8, 0xA2#8, fun _ => some (.done .ini)⟩,
    ⟨0xFF#8, 0xB2#8, fun _ => some (.done .inir)⟩,
    ⟨0xFF#8, 0xAA#8, fun _ => some (.done .ind)⟩,
    ⟨0xFF#8, 0xBA#8, fun _ => some (.done .indr)⟩,
    ⟨0xC7#8, 0x41#8, fun op => (Reg8.ofCode (field op 5 3)).bind fun src => some (.done (.outCR src))⟩,
    ⟨0xFF#8, 0xA3#8, fun _ => some (.done .outi)⟩,
    ⟨0xFF#8, 0xB3#8, fun _ => some (.done .otir)⟩,
    ⟨0xFF#8, 0xAB#8, fun _ => some (.done .outd)⟩,
    ⟨0xFF#8, 0xBB#8, fun _ => some (.done .otdr)⟩ ]

/-- DD table: byte 2 after 0xDD (R153). -/
def ddRows : List (Row Shape) :=
  [ ⟨0xC7#8, 0x46#8, fun op => (Reg8.ofCode (field op 5 3)).bind fun dst => some (.byte fun disp => .ldRAtIX dst disp)⟩,
    ⟨0xF8#8, 0x70#8, fun op => (Reg8.ofCode (field op 2 0)).bind fun src => some (.byte fun disp => .ldAtIXR disp src)⟩,
    ⟨0xFF#8, 0x36#8, fun _ => some (.dispByte fun disp n => .ldAtIXN disp n)⟩,
    ⟨0xFF#8, 0x21#8, fun _ => some (.word fun nn => .ldIXNN nn)⟩,
    ⟨0xFF#8, 0x2A#8, fun _ => some (.word fun nn => .ldIXAtNN nn)⟩,
    ⟨0xFF#8, 0x22#8, fun _ => some (.word fun nn => .ldAtNNIX nn)⟩,
    ⟨0xFF#8, 0xF9#8, fun _ => some (.done .ldSPIX)⟩,
    ⟨0xFF#8, 0xE5#8, fun _ => some (.done .pushIX)⟩,
    ⟨0xFF#8, 0xE1#8, fun _ => some (.done .popIX)⟩,
    ⟨0xFF#8, 0xE3#8, fun _ => some (.done .exAtSPIX)⟩,
    ⟨0xFF#8, 0x86#8, fun _ => some (.byte fun disp => .addAAtIX disp)⟩,
    ⟨0xFF#8, 0x8E#8, fun _ => some (.byte fun disp => .adcAAtIX disp)⟩,
    ⟨0xFF#8, 0x96#8, fun _ => some (.byte fun disp => .subAtIX disp)⟩,
    ⟨0xFF#8, 0x9E#8, fun _ => some (.byte fun disp => .sbcAAtIX disp)⟩,
    ⟨0xFF#8, 0xA6#8, fun _ => some (.byte fun disp => .andAtIX disp)⟩,
    ⟨0xFF#8, 0xB6#8, fun _ => some (.byte fun disp => .orAtIX disp)⟩,
    ⟨0xFF#8, 0xAE#8, fun _ => some (.byte fun disp => .xorAtIX disp)⟩,
    ⟨0xFF#8, 0xBE#8, fun _ => some (.byte fun disp => .cpAtIX disp)⟩,
    ⟨0xFF#8, 0x34#8, fun _ => some (.byte fun disp => .incAtIX disp)⟩,
    ⟨0xFF#8, 0x35#8, fun _ => some (.byte fun disp => .decAtIX disp)⟩ ] ++
  [ ⟨0xCF#8, 0x09#8, fun op => (Reg16IX.ofCode (field op 5 4)).bind fun pp => some (.done (.addIXPP pp))⟩,
    ⟨0xFF#8, 0x23#8, fun _ => some (.done .incIX)⟩,
    ⟨0xFF#8, 0x2B#8, fun _ => some (.done .decIX)⟩,
    ⟨0xFF#8, 0xE9#8, fun _ => some (.done .jpIX)⟩ ]

/-- FD table: byte 2 after 0xFD (R153). -/
def fdRows : List (Row Shape) :=
  [ ⟨0xC7#8, 0x46#8, fun op => (Reg8.ofCode (field op 5 3)).bind fun dst => some (.byte fun disp => .ldRAtIY dst disp)⟩,
    ⟨0xF8#8, 0x70#8, fun op => (Reg8.ofCode (field op 2 0)).bind fun src => some (.byte fun disp => .ldAtIYR disp src)⟩,
    ⟨0xFF#8, 0x36#8, fun _ => some (.dispByte fun disp n => .ldAtIYN disp n)⟩,
    ⟨0xFF#8, 0x21#8, fun _ => some (.word fun nn => .ldIYNN nn)⟩,
    ⟨0xFF#8, 0x2A#8, fun _ => some (.word fun nn => .ldIYAtNN nn)⟩,
    ⟨0xFF#8, 0x22#8, fun _ => some (.word fun nn => .ldAtNNIY nn)⟩,
    ⟨0xFF#8, 0xF9#8, fun _ => some (.done .ldSPIY)⟩,
    ⟨0xFF#8, 0xE5#8, fun _ => some (.done .pushIY)⟩,
    ⟨0xFF#8, 0xE1#8, fun _ => some (.done .popIY)⟩,
    ⟨0xFF#8, 0xE3#8, fun _ => some (.done .exAtSPIY)⟩,
    ⟨0xFF#8, 0x86#8, fun _ => some (.byte fun disp => .addAAtIY disp)⟩,
    ⟨0xFF#8, 0x8E#8, fun _ => some (.byte fun disp => .adcAAtIY disp)⟩,
    ⟨0xFF#8, 0x96#8, fun _ => some (.byte fun disp => .subAtIY disp)⟩,
    ⟨0xFF#8, 0x9E#8, fun _ => some (.byte fun disp => .sbcAAtIY disp)⟩,
    ⟨0xFF#8, 0xA6#8, fun _ => some (.byte fun disp => .andAtIY disp)⟩,
    ⟨0xFF#8, 0xB6#8, fun _ => some (.byte fun disp => .orAtIY disp)⟩,
    ⟨0xFF#8, 0xAE#8, fun _ => some (.byte fun disp => .xorAtIY disp)⟩,
    ⟨0xFF#8, 0xBE#8, fun _ => some (.byte fun disp => .cpAtIY disp)⟩,
    ⟨0xFF#8, 0x34#8, fun _ => some (.byte fun disp => .incAtIY disp)⟩,
    ⟨0xFF#8, 0x35#8, fun _ => some (.byte fun disp => .decAtIY disp)⟩ ] ++
  [ ⟨0xCF#8, 0x09#8, fun op => (Reg16IY.ofCode (field op 5 4)).bind fun rr => some (.done (.addIYRR rr))⟩,
    ⟨0xFF#8, 0x23#8, fun _ => some (.done .incIY)⟩,
    ⟨0xFF#8, 0x2B#8, fun _ => some (.done .decIY)⟩,
    ⟨0xFF#8, 0xE9#8, fun _ => some (.done .jpIY)⟩ ]

/-- DDCB table: byte 4 after 0xDD 0xCB d (R154). -/
def ddcbRows : List (Row (Byte → Instr)) :=
  [ ⟨0xFF#8, 0x06#8, fun _ => some (fun disp => .rlcAtIX disp)⟩,
    ⟨0xFF#8, 0x16#8, fun _ => some (fun disp => .rlAtIX disp)⟩,
    ⟨0xFF#8, 0x0E#8, fun _ => some (fun disp => .rrcAtIX disp)⟩,
    ⟨0xFF#8, 0x1E#8, fun _ => some (fun disp => .rrAtIX disp)⟩,
    ⟨0xFF#8, 0x26#8, fun _ => some (fun disp => .slaAtIX disp)⟩,
    ⟨0xFF#8, 0x2E#8, fun _ => some (fun disp => .sraAtIX disp)⟩,
    ⟨0xFF#8, 0x3E#8, fun _ => some (fun disp => .srlAtIX disp)⟩,
    ⟨0xC7#8, 0x46#8, fun op => some (fun disp => .bitBAtIX (field op 5 3) disp)⟩,
    ⟨0xC7#8, 0xC6#8, fun op => some (fun disp => .setBAtIX (field op 5 3) disp)⟩,
    ⟨0xC7#8, 0x86#8, fun op => some (fun disp => .resBAtIX (field op 5 3) disp)⟩ ]

/-- FDCB table: byte 4 after 0xFD 0xCB d (R154). -/
def fdcbRows : List (Row (Byte → Instr)) :=
  [ ⟨0xFF#8, 0x06#8, fun _ => some (fun disp => .rlcAtIY disp)⟩,
    ⟨0xFF#8, 0x16#8, fun _ => some (fun disp => .rlAtIY disp)⟩,
    ⟨0xFF#8, 0x0E#8, fun _ => some (fun disp => .rrcAtIY disp)⟩,
    ⟨0xFF#8, 0x1E#8, fun _ => some (fun disp => .rrAtIY disp)⟩,
    ⟨0xFF#8, 0x26#8, fun _ => some (fun disp => .slaAtIY disp)⟩,
    ⟨0xFF#8, 0x2E#8, fun _ => some (fun disp => .sraAtIY disp)⟩,
    ⟨0xFF#8, 0x3E#8, fun _ => some (fun disp => .srlAtIY disp)⟩,
    ⟨0xC7#8, 0x46#8, fun op => some (fun disp => .bitBAtIY (field op 5 3) disp)⟩,
    ⟨0xC7#8, 0xC6#8, fun op => some (fun disp => .setBAtIY (field op 5 3) disp)⟩,
    ⟨0xC7#8, 0x86#8, fun op => some (fun disp => .resBAtIY (field op 5 3) disp)⟩ ]

/-! ### Decoding (30_encoding.md R156) -/

/-- Why a byte sequence is refused. -/
inductive Reject where
  /-- The list of bytes ends inside the instruction. -/
  | truncated
  /-- The opcode byte is undefined in its table (30_encoding.md R160); the bytes fetched so far. -/
  | unknownEncoding (bytes : List Byte)
  deriving DecidableEq, Repr

/-- The table that byte 1 leads to (30_encoding.md R140, R156). -/
inductive Page where
  | main
  | cb
  | dd
  | ed
  | fd
  deriving DecidableEq, Repr

/-- The four lead bytes 0xCB, 0xDD, 0xED, 0xFD; every other byte is an opcode of the main table. -/
def Page.of (b1 : Byte) : Page :=
  if b1 = 0xCB#8 then .cb
  else if b1 = 0xDD#8 then .dd
  else if b1 = 0xED#8 then .ed
  else if b1 = 0xFD#8 then .fd
  else .main

/-- Take the operand bytes of a shape, low byte of a word first (30_encoding.md R155). -/
def Shape.finish : Shape → List Byte → Except Reject (Instr × List Byte)
  | .done i, rest => .ok (i, rest)
  | .byte f, n :: rest => .ok (f n, rest)
  | .word f, nl :: nh :: rest => .ok (f (wordOf nh nl), rest)
  | .dispByte f, disp :: n :: rest => .ok (f disp n, rest)
  | .byte _, [] => .error .truncated
  | .word _, _ => .error .truncated
  | .dispByte _, _ => .error .truncated

/-- The instruction with opcode byte `op` of table `rows`; `seen` are the bytes up to and with `op`. -/
def decodeOp (rows : List (Row Shape)) (seen : List Byte) (op : Byte) (rest : List Byte) :
    Except Reject (Instr × List Byte) :=
  match lookup rows op with
  | some shape => shape.finish rest
  | none => .error (.unknownEncoding seen)

/-- Formats `xy_op` to `xy_cb_d_op` after the lead byte `lead`: table `rows`, or `cbRows` when byte 2 is 0xCB. -/
def decodeIndexed (rows : List (Row Shape)) (cbs : List (Row (Byte → Instr))) (lead : Byte) :
    List Byte → Except Reject (Instr × List Byte)
  | [] => .error .truncated
  | b2 :: rest =>
    if b2 = 0xCB#8 then
      match rest with
      | disp :: op :: rest' =>
        match lookup cbs op with
        | some f => .ok (f disp, rest')
        | none => .error (.unknownEncoding [lead, b2, disp, op])
      | _ => .error .truncated
    else decodeOp rows [lead, b2] b2 rest

/-- The instruction at the head of a list of bytes, and the bytes after it (30_encoding.md R156). -/
def decode : List Byte → Except Reject (Instr × List Byte)
  | [] => .error .truncated
  | b1 :: rest =>
    match Page.of b1 with
    | .main => decodeOp mainRows [b1] b1 rest
    | .cb =>
      match rest with
      | [] => .error .truncated
      | b2 :: rest' => decodeOp cbRows [b1, b2] b2 rest'
    | .ed =>
      match rest with
      | [] => .error .truncated
      | b2 :: rest' => decodeOp edRows [b1, b2] b2 rest'
    | .dd => decodeIndexed ddRows ddcbRows b1 rest
    | .fd => decodeIndexed fdRows fdcbRows b1 rest

/-- Operand bytes after opcode byte `op` of a table: none where the cell is undefined. -/
def operandCount (rows : List (Row Shape)) (op : Byte) : Nat := ((lookup rows op).map Shape.operands).getD 0

/-- How many bytes an instruction that begins with `b1`, `b2` has; for an unknown encoding, how many bytes are
fetched before it is refused (30_encoding.md R140, R156; 60_exceptions.md R501). -/
def instrLength (b1 b2 : Byte) : Nat :=
  match Page.of b1 with
  | .main => 1 + operandCount mainRows b1
  | .cb => 2
  | .ed => 2 + operandCount edRows b2
  | .dd => if b2 = 0xCB#8 then 4 else 2 + operandCount ddRows b2
  | .fd => if b2 = 0xCB#8 then 4 else 2 + operandCount fdRows b2

/-- How many M1 fetches the instruction makes: two with a lead byte, else one (10_state.md R43). -/
def m1Fetches (b1 : Byte) : Nat :=
  match Page.of b1 with
  | .main => 1
  | .cb | .dd | .ed | .fd => 2

/-! ### Encoding -/

/-- The opcode byte with the given value. -/
def opByte (value : Nat) : Byte := BitVec.ofNat 8 value

/-- The bytes of an instruction in fetch order, from the pattern of its rule. -/
def encode : Instr → List Byte
  | .ldRR dst src => [opByte (0x40 + 8 * dst.code + src.code)]
  | .ldRN dst n => [opByte (0x06 + 8 * dst.code), n]
  | .ldRAtHL dst => [opByte (0x46 + 8 * dst.code)]
  | .ldRAtIX dst disp => [0xDD#8, opByte (0x46 + 8 * dst.code), disp]
  | .ldRAtIY dst disp => [0xFD#8, opByte (0x46 + 8 * dst.code), disp]
  | .ldAtHLR src => [opByte (0x70 + src.code)]
  | .ldAtIXR disp src => [0xDD#8, opByte (0x70 + src.code), disp]
  | .ldAtIYR disp src => [0xFD#8, opByte (0x70 + src.code), disp]
  | .ldAtHLN n => [0x36#8, n]
  | .ldAtIXN disp n => [0xDD#8, 0x36#8, disp, n]
  | .ldAtIYN disp n => [0xFD#8, 0x36#8, disp, n]
  | .ldAAtBC => [0x0A#8]
  | .ldAAtDE => [0x1A#8]
  | .ldAAtNN nn => [0x3A#8, loByte nn, hiByte nn]
  | .ldAtBCA => [0x02#8]
  | .ldAtDEA => [0x12#8]
  | .ldAtNNA nn => [0x32#8, loByte nn, hiByte nn]
  | .ldAI => [0xED#8, 0x57#8]
  | .ldARefresh => [0xED#8, 0x5F#8]
  | .ldIA => [0xED#8, 0x47#8]
  | .ldRefreshA => [0xED#8, 0x4F#8]
  | .ldDDNN dd nn => [opByte (0x01 + 16 * dd.code), loByte nn, hiByte nn]
  | .ldIXNN nn => [0xDD#8, 0x21#8, loByte nn, hiByte nn]
  | .ldIYNN nn => [0xFD#8, 0x21#8, loByte nn, hiByte nn]
  | .ldHLAtNN nn => [0x2A#8, loByte nn, hiByte nn]
  | .ldDDAtNN dd nn => [0xED#8, opByte (0x4B + 16 * dd.code), loByte nn, hiByte nn]
  | .ldIXAtNN nn => [0xDD#8, 0x2A#8, loByte nn, hiByte nn]
  | .ldIYAtNN nn => [0xFD#8, 0x2A#8, loByte nn, hiByte nn]
  | .ldAtNNHL nn => [0x22#8, loByte nn, hiByte nn]
  | .ldAtNNDD nn dd => [0xED#8, opByte (0x43 + 16 * dd.code), loByte nn, hiByte nn]
  | .ldAtNNIX nn => [0xDD#8, 0x22#8, loByte nn, hiByte nn]
  | .ldAtNNIY nn => [0xFD#8, 0x22#8, loByte nn, hiByte nn]
  | .ldSPHL => [0xF9#8]
  | .ldSPIX => [0xDD#8, 0xF9#8]
  | .ldSPIY => [0xFD#8, 0xF9#8]
  | .pushQQ qq => [opByte (0xC5 + 16 * qq.code)]
  | .pushIX => [0xDD#8, 0xE5#8]
  | .pushIY => [0xFD#8, 0xE5#8]
  | .popQQ qq => [opByte (0xC1 + 16 * qq.code)]
  | .popIX => [0xDD#8, 0xE1#8]
  | .popIY => [0xFD#8, 0xE1#8]
  | .exDEHL => [0xEB#8]
  | .exAFAF => [0x08#8]
  | .exx => [0xD9#8]
  | .exAtSPHL => [0xE3#8]
  | .exAtSPIX => [0xDD#8, 0xE3#8]
  | .exAtSPIY => [0xFD#8, 0xE3#8]
  | .ldi => [0xED#8, 0xA0#8]
  | .ldir => [0xED#8, 0xB0#8]
  | .ldd => [0xED#8, 0xA8#8]
  | .lddr => [0xED#8, 0xB8#8]
  | .cpi => [0xED#8, 0xA1#8]
  | .cpir => [0xED#8, 0xB1#8]
  | .cpd => [0xED#8, 0xA9#8]
  | .cpdr => [0xED#8, 0xB9#8]
  | .addAR src => [opByte (0x80 + src.code)]
  | .addAN n => [0xC6#8, n]
  | .addAAtHL => [0x86#8]
  | .addAAtIX disp => [0xDD#8, 0x86#8, disp]
  | .addAAtIY disp => [0xFD#8, 0x86#8, disp]
  | .adcAR src => [opByte (0x88 + src.code)]
  | .adcAN n => [0xCE#8, n]
  | .adcAAtHL => [0x8E#8]
  | .adcAAtIX disp => [0xDD#8, 0x8E#8, disp]
  | .adcAAtIY disp => [0xFD#8, 0x8E#8, disp]
  | .subR src => [opByte (0x90 + src.code)]
  | .subN n => [0xD6#8, n]
  | .subAtHL => [0x96#8]
  | .subAtIX disp => [0xDD#8, 0x96#8, disp]
  | .subAtIY disp => [0xFD#8, 0x96#8, disp]
  | .sbcAR src => [opByte (0x98 + src.code)]
  | .sbcAN n => [0xDE#8, n]
  | .sbcAAtHL => [0x9E#8]
  | .sbcAAtIX disp => [0xDD#8, 0x9E#8, disp]
  | .sbcAAtIY disp => [0xFD#8, 0x9E#8, disp]
  | .andR src => [opByte (0xA0 + src.code)]
  | .andN n => [0xE6#8, n]
  | .andAtHL => [0xA6#8]
  | .andAtIX disp => [0xDD#8, 0xA6#8, disp]
  | .andAtIY disp => [0xFD#8, 0xA6#8, disp]
  | .orR src => [opByte (0xB0 + src.code)]
  | .orN n => [0xF6#8, n]
  | .orAtHL => [0xB6#8]
  | .orAtIX disp => [0xDD#8, 0xB6#8, disp]
  | .orAtIY disp => [0xFD#8, 0xB6#8, disp]
  | .xorR src => [opByte (0xA8 + src.code)]
  | .xorN n => [0xEE#8, n]
  | .xorAtHL => [0xAE#8]
  | .xorAtIX disp => [0xDD#8, 0xAE#8, disp]
  | .xorAtIY disp => [0xFD#8, 0xAE#8, disp]
  | .cpR src => [opByte (0xB8 + src.code)]
  | .cpN n => [0xFE#8, n]
  | .cpAtHL => [0xBE#8]
  | .cpAtIX disp => [0xDD#8, 0xBE#8, disp]
  | .cpAtIY disp => [0xFD#8, 0xBE#8, disp]
  | .incR dst => [opByte (0x04 + 8 * dst.code)]
  | .incAtHL => [0x34#8]
  | .incAtIX disp => [0xDD#8, 0x34#8, disp]
  | .incAtIY disp => [0xFD#8, 0x34#8, disp]
  | .decR dst => [opByte (0x05 + 8 * dst.code)]
  | .decAtHL => [0x35#8]
  | .decAtIX disp => [0xDD#8, 0x35#8, disp]
  | .decAtIY disp => [0xFD#8, 0x35#8, disp]
  | .daa => [0x27#8]
  | .cpl => [0x2F#8]
  | .neg => [0xED#8, 0x44#8]
  | .ccf => [0x3F#8]
  | .scf => [0x37#8]
  | .nop => [0x00#8]
  | .halt => [0x76#8]
  | .di => [0xF3#8]
  | .ei => [0xFB#8]
  | .im0 => [0xED#8, 0x46#8]
  | .im1 => [0xED#8, 0x56#8]
  | .im2 => [0xED#8, 0x5E#8]
  | .addHLSS ss => [opByte (0x09 + 16 * ss.code)]
  | .adcHLSS ss => [0xED#8, opByte (0x4A + 16 * ss.code)]
  | .sbcHLSS ss => [0xED#8, opByte (0x42 + 16 * ss.code)]
  | .addIXPP pp => [0xDD#8, opByte (0x09 + 16 * pp.code)]
  | .addIYRR rr => [0xFD#8, opByte (0x09 + 16 * rr.code)]
  | .incSS ss => [opByte (0x03 + 16 * ss.code)]
  | .incIX => [0xDD#8, 0x23#8]
  | .incIY => [0xFD#8, 0x23#8]
  | .decSS ss => [opByte (0x0B + 16 * ss.code)]
  | .decIX => [0xDD#8, 0x2B#8]
  | .decIY => [0xFD#8, 0x2B#8]
  | .rlca => [0x07#8]
  | .rla => [0x17#8]
  | .rrca => [0x0F#8]
  | .rra => [0x1F#8]
  | .rlcR dst => [0xCB#8, opByte (0x00 + dst.code)]
  | .rlcAtHL => [0xCB#8, 0x06#8]
  | .rlcAtIX disp => [0xDD#8, 0xCB#8, disp, 0x06#8]
  | .rlcAtIY disp => [0xFD#8, 0xCB#8, disp, 0x06#8]
  | .rlR dst => [0xCB#8, opByte (0x10 + dst.code)]
  | .rlAtHL => [0xCB#8, 0x16#8]
  | .rlAtIX disp => [0xDD#8, 0xCB#8, disp, 0x16#8]
  | .rlAtIY disp => [0xFD#8, 0xCB#8, disp, 0x16#8]
  | .rrcR dst => [0xCB#8, opByte (0x08 + dst.code)]
  | .rrcAtHL => [0xCB#8, 0x0E#8]
  | .rrcAtIX disp => [0xDD#8, 0xCB#8, disp, 0x0E#8]
  | .rrcAtIY disp => [0xFD#8, 0xCB#8, disp, 0x0E#8]
  | .rrR dst => [0xCB#8, opByte (0x18 + dst.code)]
  | .rrAtHL => [0xCB#8, 0x1E#8]
  | .rrAtIX disp => [0xDD#8, 0xCB#8, disp, 0x1E#8]
  | .rrAtIY disp => [0xFD#8, 0xCB#8, disp, 0x1E#8]
  | .slaR dst => [0xCB#8, opByte (0x20 + dst.code)]
  | .slaAtHL => [0xCB#8, 0x26#8]
  | .slaAtIX disp => [0xDD#8, 0xCB#8, disp, 0x26#8]
  | .slaAtIY disp => [0xFD#8, 0xCB#8, disp, 0x26#8]
  | .sraR dst => [0xCB#8, opByte (0x28 + dst.code)]
  | .sraAtHL => [0xCB#8, 0x2E#8]
  | .sraAtIX disp => [0xDD#8, 0xCB#8, disp, 0x2E#8]
  | .sraAtIY disp => [0xFD#8, 0xCB#8, disp, 0x2E#8]
  | .srlR dst => [0xCB#8, opByte (0x38 + dst.code)]
  | .srlAtHL => [0xCB#8, 0x3E#8]
  | .srlAtIX disp => [0xDD#8, 0xCB#8, disp, 0x3E#8]
  | .srlAtIY disp => [0xFD#8, 0xCB#8, disp, 0x3E#8]
  | .rld => [0xED#8, 0x6F#8]
  | .rrd => [0xED#8, 0x67#8]
  | .bitBR bit src => [0xCB#8, opByte (0x40 + 8 * bit + src.code)]
  | .bitBAtHL bit => [0xCB#8, opByte (0x46 + 8 * bit)]
  | .bitBAtIX bit disp => [0xDD#8, 0xCB#8, disp, opByte (0x46 + 8 * bit)]
  | .bitBAtIY bit disp => [0xFD#8, 0xCB#8, disp, opByte (0x46 + 8 * bit)]
  | .setBR bit dst => [0xCB#8, opByte (0xC0 + 8 * bit + dst.code)]
  | .setBAtHL bit => [0xCB#8, opByte (0xC6 + 8 * bit)]
  | .setBAtIX bit disp => [0xDD#8, 0xCB#8, disp, opByte (0xC6 + 8 * bit)]
  | .setBAtIY bit disp => [0xFD#8, 0xCB#8, disp, opByte (0xC6 + 8 * bit)]
  | .resBR bit dst => [0xCB#8, opByte (0x80 + 8 * bit + dst.code)]
  | .resBAtHL bit => [0xCB#8, opByte (0x86 + 8 * bit)]
  | .resBAtIX bit disp => [0xDD#8, 0xCB#8, disp, opByte (0x86 + 8 * bit)]
  | .resBAtIY bit disp => [0xFD#8, 0xCB#8, disp, opByte (0x86 + 8 * bit)]
  | .jpNN nn => [0xC3#8, loByte nn, hiByte nn]
  | .jpCCNN cc nn => [opByte (0xC2 + 8 * cc.code), loByte nn, hiByte nn]
  | .jr e => [0x18#8, e]
  | .jrC e => [0x38#8, e]
  | .jrNC e => [0x30#8, e]
  | .jrZ e => [0x28#8, e]
  | .jrNZ e => [0x20#8, e]
  | .jpHL => [0xE9#8]
  | .jpIX => [0xDD#8, 0xE9#8]
  | .jpIY => [0xFD#8, 0xE9#8]
  | .djnz e => [0x10#8, e]
  | .callNN nn => [0xCD#8, loByte nn, hiByte nn]
  | .callCCNN cc nn => [opByte (0xC4 + 8 * cc.code), loByte nn, hiByte nn]
  | .ret => [0xC9#8]
  | .retCC cc => [opByte (0xC0 + 8 * cc.code)]
  | .reti => [0xED#8, 0x4D#8]
  | .retn => [0xED#8, 0x45#8]
  | .rst target => [0xC7#8 ||| target.setWidth 8]
  | .inAN n => [0xDB#8, n]
  | .inRC dst => [0xED#8, opByte (0x40 + 8 * dst.code)]
  | .ini => [0xED#8, 0xA2#8]
  | .inir => [0xED#8, 0xB2#8]
  | .ind => [0xED#8, 0xAA#8]
  | .indr => [0xED#8, 0xBA#8]
  | .outNA n => [0xD3#8, n]
  | .outCR src => [0xED#8, opByte (0x41 + 8 * src.code)]
  | .outi => [0xED#8, 0xA3#8]
  | .otir => [0xED#8, 0xB3#8]
  | .outd => [0xED#8, 0xAB#8]
  | .otdr => [0xED#8, 0xBB#8]

/-! ### The opcode table's numbering (log 13) -/

/-- The bytes of an instruction whose first `nbits` bits are `w`, byte 1 most significant (30_encoding.md R157),
with zero bytes after them up to the longest instruction. -/
def tableBytes (nbits w : Nat) : List Byte :=
  (List.range (nbits / 8)).map (fun k => BitVec.ofNat 8 (w / 256 ^ (nbits / 8 - 1 - k))) ++
    List.replicate (4 - nbits / 8) 0x00#8

/-- The instruction the decoder reads from a word of spec/opcode_table.json. -/
def decodeTableWord (nbits w : Nat) : Option Instr :=
  match decode (tableBytes nbits w) with
  | .ok (i, _) => some i
  | .error _ => none

end Sys2Proof
end

