-- ==== Sys2Proof/Config.lean ====
section
/-! DEFINITION. The configuration record `cfg` (00_scope.md R8, R9) as plain data, and the
uninterpreted functions that stand for what the configuration or the spec leaves open.
A parameter of function type is held as plain data that names it: a finite description, or a number
that selects one value of an uninterpreted function declared here with no body. -/

namespace Sys2Proof

/-! ### Slots and banks -/

/-- One slot: its address range (00_scope.md R8 `SLOT_BASE`, `SLOT_SIZE`). -/
structure Slot where
  base : Nat
  size : Nat
  deriving DecidableEq, Repr, Inhabited

/-- `BANK_KIND` (00_scope.md R8). -/
inductive BankKind where
  | ram
  | rom
  | unmapped
  deriving DecidableEq, Repr, Inhabited

/-- One bank (00_scope.md R8 `BANK_SIZE`, `BANK_KIND`, `BANK_FILL`, `BANK_SLOTS`, `ROM_IMAGE`). -/
structure Bank where
  size  : Nat
  kind  : BankKind
  fill  : Byte
  slots : List Nat
  image : Option (List Byte)
  deriving DecidableEq, Repr, Inhabited

/-! ### The bank-switch rule (20_memory.md R100) -/

/-- One variant of the finite rule set the source advises (20_memory.md R100): each answers the bank
that the written value selects for one slot. -/
inductive RuleClause where
  /-- Assign `bank` to `slot` when `value AND mask = pattern`. -/
  | maskCompare (mask pattern : Byte) (slot bank : Nat)
  /-- Assign to `slot` the entry of `banks` that the masked, shifted value indexes. -/
  | tableLookup (mask : Byte) (shift slot : Nat) (banks : List Nat)
  /-- Assign to `slot` the bank `offset` plus the masked, shifted value. -/
  | arithOffset (mask : Byte) (shift slot offset : Nat)
  deriving DecidableEq, Repr, Inhabited

/-- What a rule computes with: a list of clauses, or an interpreted script known by number only. -/
inductive RuleBody where
  | clauses (rules : List RuleClause)
  | script (id : Nat)
  deriving DecidableEq, Repr, Inhabited

/-- `BANK_RULE`: the bound ports and the rule (20_memory.md R100). -/
structure BankRule where
  ports : List Word
  body  : RuleBody
  deriving DecidableEq, Repr, Inhabited

/-- The answer of a rule (20_memory.md R100). -/
inductive RuleResult where
  | ok (assignments : List (Nat × Nat)) (script : List Byte)
  | err (message : String)
  | timeout
  deriving DecidableEq, Repr, Inhabited

/-! ### Port handlers (20_memory.md R110) -/

/-- A read handler. `constant` answers one byte and changes nothing; `ula` applies `ULA_PORT_EVENTS`
and drives the bus or answers `PORT_IDLE` (60_exceptions.md R546); `device` is any other peripheral (logs 3, 5, 9). -/
inductive ReadHandler where
  | constant (value : Byte)
  | ula (drives : Bool)
  | device (id : Nat)
  deriving DecidableEq, Repr, Inhabited

/-- A write handler. `record` is a peripheral that appends the port address (high byte, low byte) and the
value to the peripheral state; `ula` applies `ULA_PORT_EVENTS`; `bankRule` evaluates `BANK_RULE`; `device`
is any other peripheral, and may fail (logs 5, 9). -/
inductive WriteHandler where
  | record
  | ula
  | bankRule
  | device (id : Nat)
  deriving DecidableEq, Repr, Inhabited

/-- `PORT_POLICY` (00_scope.md R8). -/
inductive PortPolicy where
  | and
  | or
  deriving DecidableEq, Repr, Inhabited

/-- Direction of a port access (60_exceptions.md R546). -/
inductive PortDir where
  | read
  | write
  deriving DecidableEq, Repr, Inhabited

/-- One row of a tabulated `ULA_PORT_EVENTS` (log 21): an access of direction `dir` at a port with
`port AND mask = pattern` sets or clears the signals named. -/
structure PortEvent where
  dir     : PortDir
  mask    : Word
  pattern : Word
  syncReq : Option Bool
  nmiOn   : Option Bool
  deriving DecidableEq, Repr, Inhabited

/-- `ULA_PORT_EVENTS` (60_exceptions.md R546): a table whose first matching row acts, or a function known
by number only. -/
inductive PortEvents where
  | table (rows : List PortEvent)
  | platform (id : Nat)
  deriving DecidableEq, Repr, Inhabited

/-! ### ULA parameters -/

/-- `ULA_VARIANT` (00_scope.md R8). -/
inductive UlaVariant where
  | none
  | bufferReplay
  | busReplay
  deriving DecidableEq, Repr, Inhabited

/-- `WAIT_EXT` (00_scope.md R8): a table of offsets with a value for every further offset, or a function
known by number only. -/
inductive WaitExt where
  | table (values : List Nat) (beyond : Nat)
  | platform (id : Nat)
  deriving DecidableEq, Repr, Inhabited

/-- `CHARGEN_ADDR` (60_exceptions.md R553): one address for every byte and line, or a function known by
number only. -/
inductive CharGen where
  | fixed (address : Word)
  | platform (id : Nat)
  deriving DecidableEq, Repr, Inhabited

/-- `COLOR_BYTE` (60_exceptions.md R553): one byte, or a function known by number only. -/
inductive ColorSource where
  | fixed (value : Byte)
  | platform (id : Nat)
  deriving DecidableEq, Repr, Inhabited

/-- When the bus-replay ULA shows a character it has intercepted: at the fetch, as 60_exceptions.md R553 has it, or at
the start of its own step, as 20_memory.md R120 has it (DESIGN CHOICE, log 33: the spec says both). -/
inductive CharRead where
  | atFetch
  | inUlaStep
  deriving DecidableEq, Repr, Inhabited

/-! ### The record -/

/-- The configuration record `cfg` (00_scope.md R8): fixed at construction, never changed by a step. -/
structure Config where
  slots         : List Slot
  banks         : List Bank
  initSlot      : List Nat
  bankRule      : Option BankRule
  scriptInit    : List Byte
  portPolicy    : PortPolicy
  readSpecific  : List (Word × ReadHandler)
  writeSpecific : List (Word × WriteHandler)
  readGeneric   : List ReadHandler
  writeGeneric  : List WriteHandler
  periphInit    : List Byte
  intPeriodT    : Nat
  intBusByte    : Byte
  rIntBit       : Option Nat
  ulaVariant    : UlaVariant
  tScanlineBus  : Nat
  tHsyncLow     : Nat
  tVsyncMin     : Nat
  tVrefresh     : Nat
  waitExt       : WaitExt
  displayBase   : Word
  displayLen    : Nat
  charData      : List Byte
  charInvert    : List Byte
  charGen       : CharGen
  charRead      : CharRead
  colorMode     : Bool
  colorSource   : ColorSource
  portEvents    : PortEvents
  loadAvgN      : Nat
  batchN        : Nat
  deriving DecidableEq, Repr, Inhabited

namespace Config

/-- `PORT_IDLE`: the identity of the combination (00_scope.md R8; 92_eei_decisions.md D17). -/
def portIdle (cfg : Config) : Byte :=
  match cfg.portPolicy with
  | .and => 0xFF#8
  | .or  => 0x00#8

/-- `T_SCANLINE`: 207 in the buffer-replay variant, a parameter in the bus-replay one (00_scope.md R8). -/
def tScanline (cfg : Config) : Nat :=
  match cfg.ulaVariant with
  | .bufferReplay => 207
  | .none | .busReplay => cfg.tScanlineBus

/-- Bank `b`, where there is one. -/
def bank? (cfg : Config) (b : Nat) : Option Bank := cfg.banks[b]?

/-! ### Uninterpreted functions: what the spec leaves to the configuration (no body) -/

/-- FREE VALUE. The draws `any1` (00_scope.md R11, 10_state.md R37): value number `k` of the run.
Nothing constrains it (log 4). -/
opaque freeBit : Nat → Bool

/-- FREE VALUE. `t_total` and the two parts of `cpu_load` after a restore (93_implementation_defined.md U7, U8). -/
opaque freeNat : Nat → Nat

/-- FREE VALUE. What a byte reads as at an address that no slot or no bank covers: only a configuration that
fails R9 has one (log 7). -/
opaque absentByte : Config → Nat → Byte

/-- A peripheral's answer to a port read and its new state (20_memory.md R110): number, port, state. -/
opaque deviceRead : Nat → Word → List Byte → Byte × List Byte

/-- A peripheral's reaction to a port write (20_memory.md R110): number, port, value, state; a failure's message
otherwise. -/
opaque deviceWrite : Nat → Word → Byte → List Byte → Except String (List Byte)

/-- An interpreted bank-switch rule (20_memory.md R100; logs 8, 22): number, port, value, slot table, script state. -/
opaque bankScript : Nat → Word → Byte → List Nat → List Byte → RuleResult

/-- `ULA_PORT_EVENTS` of platform `id` (60_exceptions.md R546): direction, port, value (absent on a read),
`sync_req`, `nmi_on`. -/
opaque platformPortEvents : Nat → PortDir → Word → Option Byte → Bool → Bool → Bool × Bool

/-- The byte a ULA read handler drives (60_exceptions.md R546): port, `sync_req` and `nmi_on` before the event of
this read, the same two after it, peripheral state. DESIGN CHOICE (log 31): the spec does not say on which of the two
pairs the byte depends, so it may depend on both. -/
opaque ulaReadByte : Word → Bool → Bool → Bool → Bool → List Byte → Byte

/-- `WAIT_EXT` of platform `id`, as a function of the offset (60_exceptions.md R548). -/
opaque platformWaitExt : Nat → Nat → Nat

/-- `CHARGEN_ADDR` of platform `id` (60_exceptions.md R553): `I`, `IX`, `IY`, the byte, the line. -/
opaque platformCharGen : Nat → Byte → Word → Word → Byte → Nat → Word

/-! ### Evaluating the parameters of function type -/

/-- `WAIT_EXT(offset)` (60_exceptions.md R548). -/
def waitExtOf (cfg : Config) (offset : Nat) : Nat :=
  match cfg.waitExt with
  | .table values beyond => values.getD offset beyond
  | .platform id => platformWaitExt id offset

/-- `CHARGEN_ADDR(I, IX, IY, b, line)` (60_exceptions.md R553). -/
def charGenOf (cfg : Config) (i : Byte) (ix iy : Word) (b : Byte) (line : Nat) : Word :=
  match cfg.charGen with
  | .fixed address => address
  | .platform id => platformCharGen id i ix iy b line

/-- `ULA_PORT_EVENTS` (60_exceptions.md R546). -/
def portEventsOf (cfg : Config) (dir : PortDir) (port : Word) (value : Option Byte) (syncReq nmiOn : Bool) :
    Bool × Bool :=
  match cfg.portEvents with
  | .table rows =>
    match rows.find? (fun row => row.dir == dir && port &&& row.mask == row.pattern) with
    | some row => (row.syncReq.getD syncReq, row.nmiOn.getD nmiOn)
    | none => (syncReq, nmiOn)
  | .platform id => platformPortEvents id dir port value syncReq nmiOn

/-! ### Well-formedness (00_scope.md R9) -/

/-- Why a configuration is refused at construction (00_scope.md R9; 60_exceptions.md R505). -/
inductive Error where
  | slotsDoNotPartition
  | noBanks
  | initSlotRejected (slot : Nat)
  | romImageMissing (bank : Nat)
  | imageSizeWrong (bank : Nat)
  | bankSizeNotSlotSize (bank : Nat)
  | intPeriodTooShort
  | rIntBitOutOfRange
  | scanlineOrHsyncLow
  | loadAverageZero
  | bankRuleNotAttached
  | duplicateSpecificHandler
  deriving DecidableEq, Repr

/-- The slots cover the addresses from `start` up to 0x10000 in ascending order without a gap. -/
def partitions : Nat → List Slot → Bool
  | start, [] => start == 65536
  | start, slot :: rest => slot.base == start && 0 < slot.size && partitions (start + slot.size) rest

/-- The pair test of 20_memory.md R99: bank `b` may be assigned to slot `s`. -/
def pairAllowed (cfg : Config) (s b : Nat) : Bool :=
  s < cfg.slots.length &&
    match cfg.bank? b with
    | some bank => bank.slots.contains s
    | none => false

/-- Every slot of a table holds a bank it may hold (10_state.md R53). -/
def tableAllowed (cfg : Config) (table : List Nat) : Bool :=
  table.length == cfg.slots.length && table.zipIdx.all (fun entry => cfg.pairAllowed entry.2 entry.1)

/-- Every bank has the size of every slot it may be assigned to, and those slots exist (00_scope.md R9, D19). -/
def bankFits (cfg : Config) (bank : Bank) : Bool :=
  bank.slots.all fun s =>
    match cfg.slots[s]? with
    | some slot => slot.size == bank.size
    | none => false

/-- Each specific handler table names a port at most once (20_memory.md R110). -/
def portsDistinct {α : Type} (table : List (Word × α)) : Bool :=
  decide (table.map Prod.fst).Nodup

/-- The bank-switch rule is attached to the port dispatcher at every port it is bound to (20_memory.md R118,
70_reset_and_hazards.md R601 step 4). DESIGN CHOICE (log 32): the handler tables attach it, as a specific or as a
generic handler. -/
def ruleAttached (cfg : Config) : Bool :=
  match cfg.bankRule with
  | none => true
  | some rule =>
    cfg.writeGeneric.contains .bankRule ||
      rule.ports.all (fun port => cfg.writeSpecific.contains (port, .bankRule))

/-- 00_scope.md R9: the first reason to refuse the configuration, or none (logs 25, 32). -/
def check (cfg : Config) : Option Error :=
  if !partitions 0 cfg.slots then some .slotsDoNotPartition
  else if cfg.banks.isEmpty then some .noBanks
  else if !cfg.tableAllowed cfg.initSlot then
    some (.initSlotRejected
      ((cfg.initSlot.zipIdx.findIdx? (fun entry => !cfg.pairAllowed entry.2 entry.1)).getD cfg.initSlot.length))
  else match cfg.banks.findIdx? (fun bank => bank.kind == .rom && bank.image.isNone) with
  | some b => some (.romImageMissing b)
  | none =>
  match cfg.banks.findIdx? (fun bank => (bank.image.map List.length).getD bank.size != bank.size) with
  | some b => some (.imageSizeWrong b)
  | none =>
  match cfg.banks.findIdx? (fun bank => !cfg.bankFits bank) with
  | some b => some (.bankSizeNotSlotSize b)
  | none =>
  if cfg.intPeriodT != 0 && cfg.intPeriodT < 64 then some .intPeriodTooShort
  else if (cfg.rIntBit.getD 0) > 7 then some .rIntBitOutOfRange
  else if cfg.ulaVariant != .none && (cfg.tScanline == 0 || cfg.tScanline ≤ cfg.tHsyncLow) then
    some .scanlineOrHsyncLow
  else if cfg.loadAvgN == 0 then some .loadAverageZero
  else if !cfg.ruleAttached then some .bankRuleNotAttached
  else if !(portsDistinct cfg.readSpecific && portsDistinct cfg.writeSpecific) then
    some .duplicateSpecificHandler
  else none

/-- DESIGN CHOICE (log 1): the configuration of `State.reset`: one slot, one 64 KiB RAM bank filled with 0x00,
no interrupt source, no ULA, no port handler (the convention of 95_test_vectors.md). -/
def standard : Config where
  slots := [⟨0, 65536⟩]
  banks := [⟨65536, .ram, 0x00#8, [0], none⟩]
  initSlot := [0]
  bankRule := none
  scriptInit := []
  portPolicy := .and
  readSpecific := []
  writeSpecific := []
  readGeneric := []
  writeGeneric := []
  periphInit := []
  intPeriodT := 0
  intBusByte := 0xFF#8
  rIntBit := none
  ulaVariant := .none
  tScanlineBus := 207
  tHsyncLow := 0
  tVsyncMin := 0
  tVrefresh := 0
  waitExt := .table [] 0
  displayBase := 0#16
  displayLen := 0
  charData := []
  charInvert := []
  charGen := .fixed 0#16
  charRead := .atFetch
  colorMode := false
  colorSource := .fixed 0#8
  portEvents := .table []
  loadAvgN := 1
  batchN := 4096

end Config

end Sys2Proof
end

