-- ==== Sys2Proof/Machine/State.lean ====
section
/-! DEFINITION. The state of the machine as plain data (10_state.md R30 to R62), the faults, refusals and
failures of a step (60_exceptions.md R500 to R506), and the state after reset (10_state.md R64). -/

namespace Sys2Proof.Machine

/-! ### CPU registers and hidden state (10_state.md R31 to R49) -/

/-- The flag register `F`, bit 7 first (10_state.md R36). `y` and `x` are bits 5 and 3. -/
structure Flags where
  s  : Bool
  z  : Bool
  y  : Bool
  h  : Bool
  x  : Bool
  pv : Bool
  n  : Bool
  c  : Bool
  deriving DecidableEq, Repr

/-- The interrupt mode `IM` (10_state.md R44). -/
inductive IntMode where
  | im0
  | im1
  | im2
  deriving DecidableEq, Repr

/-- The register set (10_state.md R31) and the hidden flags and counter of the CPU (R46 to R49). A register pair
is a view of two halves, not a field (R32). -/
structure Cpu where
  a : Byte
  f : Flags
  b : Byte
  c : Byte
  d : Byte
  e : Byte
  h : Byte
  l : Byte
  altA : Byte
  altF : Flags
  altB : Byte
  altC : Byte
  altD : Byte
  altE : Byte
  altH : Byte
  altL : Byte
  ix : Word
  iy : Word
  sp : Word
  pc : Word
  i : Byte
  r : Byte
  im : IntMode
  iff1 : Bool
  iff2 : Bool
  halted : Bool
  eiShadow : Bool
  intDeferred : Bool
  intCountdown : Int
  deriving DecidableEq, Repr

/-- Load accounting (10_state.md R51). `ratioNum / ratioDen` is `cpu_load`. -/
structure Load where
  idle     : Nat
  active   : Nat
  ints     : Nat
  ratioNum : Nat
  ratioDen : Nat
  deriving DecidableEq, Repr

/-! ### Memory, watchpoints, activity (10_state.md R52 to R56) -/

/-- Bank contents: the listed bytes differ from the bank's initial ones; the key of byte `offset` of bank `b` is
`b * 65536 + offset`; keys rise strictly (log 6). -/
abbrev Memory := List Host.Cell

/-- The kind of an access (10_state.md R55). -/
inductive AccessKind where
  | read
  | write
  deriving DecidableEq, Repr

/-- Watchpoint state (10_state.md R54, R55): the counts that are not 0, by address, and the hit record. -/
structure Watch where
  read  : List (Nat × Nat)
  write : List (Nat × Nat)
  hit   : Option (Word × AccessKind)
  deriving DecidableEq, Repr

/-- The activity marks of one address (10_state.md R56, 20_memory.md R105). -/
structure Marks where
  executed : Bool
  read     : Bool
  written  : Bool
  deriving DecidableEq, Repr

/-! ### ULA (10_state.md R58 to R60) -/

/-- The stable output buffer: a copy of display memory, or the line records of a frame and its colour plane. -/
inductive Frame where
  | bytes (data : List Byte)
  | lines (work colorWork : List (List Byte))
  deriving DecidableEq, Repr

/-- ULA timing state (10_state.md R58, R60). -/
structure Ula where
  t           : Nat
  lineT       : Nat
  line        : Nat
  hsyncEdgeT  : Nat
  vsync       : Bool
  vsyncStartT : Nat
  vsyncEndT   : Nat
  prevR       : Byte
  frame       : Option Frame
  frameT      : Nat
  syncReq     : Bool
  nmiOn       : Bool
  scanRec     : List Byte
  work        : List (List Byte)
  colorRec    : List Byte
  colorWork   : List (List Byte)
  pendingChar : Option (Word × Byte)
  deriving DecidableEq, Repr

/-! ### Outcomes (60_exceptions.md R500 to R506) -/

/-- The fatal faults: values of the mark `fault` (60_exceptions.md R500). -/
inductive Fault where
  /-- Raised by instruction decode (60_exceptions.md R501), for an encoding the spec leaves undefined. Safe: the
  machine stops where a real core may go on (log 28). -/
  | unknownEncoding (pc0 : Word) (bytes : List Byte)
  /-- Raised by a maskable interrupt entry in mode 0 whose bus byte is no restart opcode (60_exceptions.md R502).
  Safe: the machine stops where a real core runs the instruction on the bus. -/
  | im0Unsupported (bus : Byte)
  /-- Raised by the host's restore of a snapshot of the wrong shape (60_exceptions.md R504). Safe: no step is
  taken afterwards. -/
  | corruptState
  deriving DecidableEq, Repr

/-- Why a step is refused. -/
inductive Refusal where
  /-- Raised by `exec` for an instruction that has no meaning yet; no arm raises it. Safe: the model stops. -/
  | notModelled (mnemonic : String)
  deriving DecidableEq, Repr

/-- A recoverable failure of a port write (60_exceptions.md R503): reported by the machine step, no fault. -/
inductive Failure where
  | bankSwitchRejected (slot bank : Nat) (port : Word)
  | bankRuleError (port : Word) (message : String)
  | bankRuleTimeout (port : Word)
  | handlerError (port : Word) (message : String)
  deriving DecidableEq, Repr

/-! ### Debug loop (10_state.md R61) -/

/-- `loop_state` (60_exceptions.md R560). -/
inductive LoopState where
  | idle
  | running
  | steppingOut
  deriving DecidableEq, Repr

/-- What a breakpoint does when its condition lets it act (60_exceptions.md R563): stop, emit a message only
("log-only"), or both. A log template is a text of the host's language (log 15). -/
inductive BreakAction where
  | stop
  | logOnly (template : String)
  | logAndStop (template : String)
  deriving DecidableEq, Repr

/-- One entry of the breakpoint table (60_exceptions.md R563, R578): the condition belongs to the host's language, so
it is a number (log 15). -/
structure Breakpoint where
  address   : Word
  condition : Option Nat
  action    : BreakAction
  deriving DecidableEq, Repr

/-- The reason codes of a stop (60_exceptions.md R565). -/
inductive StopReason where
  | breakpointHit
  | watchpointRead
  | watchpointWrite
  | manualPause
  | unexpectedFailure
  | stepDone
  deriving DecidableEq, Repr

/-- The stop record (60_exceptions.md R565), with the failure it carries as a warning (R503). -/
structure StopRecord where
  reason  : StopReason
  address : Word
  warning : Option Failure
  deriving DecidableEq, Repr

/-- Debug-loop state (10_state.md R61) and the `sp0` of a step-out (60_exceptions.md R572). -/
structure Debug where
  loop        : LoopState
  breakpoints : List Breakpoint
  transient1  : Option Word
  transient2  : Option Word
  pauseReq    : Bool
  lastStop    : Option StopRecord
  sp0         : Word
  deriving DecidableEq, Repr

/-- A notification to the host (60_exceptions.md R581), or the message of a log-only breakpoint (R563). -/
inductive Notice where
  | frameReady
  | pauseAcknowledged
  | logMessage (address : Word) (template : String)
  deriving DecidableEq, Repr

/-! ### The state -/

/-- The state of the machine (10_state.md R30). `cfg` is the configuration, which no step changes. The model's
own fields: `pc0` (address of the running instruction), `tIns` (its T-states), `tCall` (what `ExecuteOne`
returned), `failure` (what `MachineStep` returns), `notices` (notifications, oldest first), `draws` (unspecified
values drawn so far); logs 4 and 14. -/
structure State where
  cfg      : Config
  cpu      : Cpu
  pc0      : Word
  tIns     : Nat
  tCall    : Nat
  tTotal   : Nat
  load     : Load
  mem      : Memory
  slots    : List Nat
  watch    : Watch
  activity : List (Nat × Marks)
  coverage : List Word
  periph   : List Byte
  script   : List Byte
  ula      : Ula
  dbg      : Debug
  notices  : List Notice
  failure  : Option Failure
  fault    : Option Fault
  draws    : Nat
  deriving DecidableEq, Repr

/-- The result of a step or of an instruction. -/
abbrev Result := Host.Outcome State Fault Refusal

/-! ### Reset (10_state.md R64, 70_reset_and_hazards.md R600 to R602) -/

/-- All flags clear. -/
def Flags.zero : Flags := ⟨false, false, false, false, false, false, false, false⟩

/-- What the spec leaves unspecified at reset (10_state.md R64, "unspecified"): an input of reset. -/
structure Launch where
  a : Byte
  f : Flags
  b : Byte
  c : Byte
  d : Byte
  e : Byte
  h : Byte
  l : Byte
  altA : Byte
  altF : Flags
  altB : Byte
  altC : Byte
  altD : Byte
  altE : Byte
  altH : Byte
  altL : Byte
  ix : Word
  iy : Word
  sp : Word
  ratioNum : Nat
  ratioDen : Nat
  deriving DecidableEq, Repr

/-- DESIGN CHOICE (log 2): every register the spec leaves unspecified is zero, and `cpu_load` is 0. -/
def Launch.zero : Launch where
  a := 0#8
  f := Flags.zero
  b := 0#8
  c := 0#8
  d := 0#8
  e := 0#8
  h := 0#8
  l := 0#8
  altA := 0#8
  altF := Flags.zero
  altB := 0#8
  altC := 0#8
  altD := 0#8
  altE := 0#8
  altH := 0#8
  altL := 0#8
  ix := 0#16
  iy := 0#16
  sp := 0#16
  ratioNum := 0
  ratioDen := 1

/-- The CPU after reset: `PC`, `I`, `R`, `IM`, `IFF1`, `IFF2` and the hidden state as 10_state.md R64 says, the
rest from the launch input. -/
def Cpu.resetWith (cfg : Config) (launch : Launch) : Cpu where
  a := launch.a
  f := launch.f
  b := launch.b
  c := launch.c
  d := launch.d
  e := launch.e
  h := launch.h
  l := launch.l
  altA := launch.altA
  altF := launch.altF
  altB := launch.altB
  altC := launch.altC
  altD := launch.altD
  altE := launch.altE
  altH := launch.altH
  altL := launch.altL
  ix := launch.ix
  iy := launch.iy
  sp := launch.sp
  pc := 0x0000#16
  i := 0x00#8
  r := 0x00#8
  im := .im0
  iff1 := false
  iff2 := false
  halted := false
  eiShadow := false
  intDeferred := false
  intCountdown := cfg.intPeriodT

/-- The ULA after reset (10_state.md R64). -/
def Ula.reset : Ula where
  t := 0
  lineT := 0
  line := 0
  hsyncEdgeT := 0
  vsync := false
  vsyncStartT := 0
  vsyncEndT := 0
  prevR := 0x00#8
  frame := none
  frameT := 0
  syncReq := false
  nmiOn := false
  scanRec := []
  work := []
  colorRec := []
  colorWork := []
  pendingChar := none

/-- The debug loop after reset (10_state.md R64). -/
def Debug.reset : Debug where
  loop := .idle
  breakpoints := []
  transient1 := none
  transient2 := none
  pauseReq := false
  lastStop := none
  sp0 := 0#16

/-- The machine right after construction from `cfg` (10_state.md R64, 70_reset_and_hazards.md R601 step 5). -/
def State.resetWith (cfg : Config) (launch : Launch) : State where
  cfg := cfg
  cpu := Cpu.resetWith cfg launch
  pc0 := 0#16
  tIns := 0
  tCall := 0
  tTotal := 0
  load := ⟨0, 0, 0, launch.ratioNum, launch.ratioDen⟩
  mem := []
  slots := cfg.initSlot
  watch := ⟨[], [], none⟩
  activity := []
  coverage := []
  periph := cfg.periphInit
  script := cfg.scriptInit
  ula := Ula.reset
  dbg := Debug.reset
  notices := []
  failure := none
  fault := none
  draws := 0

/-- The machine right after reset, in the standard configuration (log 1) with the launch values of log 2. -/
def State.reset : State := State.resetWith Config.standard Launch.zero

/-- Construction (70_reset_and_hazards.md R601): refused with a configuration error, or the reset machine. -/
def State.construct (cfg : Config) (launch : Launch) : Except Config.Error State :=
  match cfg.check with
  | some e => .error e
  | none => .ok (State.resetWith cfg launch)

end Sys2Proof.Machine
end

