-- ==== Sys2Proof/Machine/Ops.lean ====
section
/-! DEFINITION. The named operations over memory, ports, stack and interrupts (20_memory.md; 60_exceptions.md R520
to R522). Every bus access, port access and interrupt entry of the machine goes through one of them. -/

namespace Sys2Proof.Machine

/-! ### Sparse maps in one canonical form (log 6) -/

/-- The value at key `k`; an unlisted key has value `dflt`. -/
def Sparse.get {α : Type} (dflt : α) (k : Nat) : List (Nat × α) → α
  | [] => dflt
  | (k', v) :: rest => if k' = k then v else if k < k' then dflt else Sparse.get dflt k rest

/-- Write `v` at key `k`, keeping keys strictly rising and listing no entry equal to `dflt`. -/
def Sparse.set {α : Type} [DecidableEq α] (dflt : α) (k : Nat) (v : α) : List (Nat × α) → List (Nat × α)
  | [] => if v = dflt then [] else [(k, v)]
  | (k', v') :: rest =>
    if k < k' then (if v = dflt then (k', v') :: rest else (k, v) :: (k', v') :: rest)
    else if k = k' then (if v = dflt then rest else (k, v) :: rest)
    else (k', v') :: Sparse.set dflt k v rest

/-- Every key is above `low`, keys rise strictly, and no entry equals what its key reads as when unlisted. -/
def Sparse.wfAbove {α : Type} [DecidableEq α] (dflt : Nat → α) : Nat → List (Nat × α) → Bool
  | _, [] => true
  | low, (k, v) :: rest => low ≤ k && v ≠ dflt k && Sparse.wfAbove dflt (k + 1) rest

/-- The canonical form of a sparse map. -/
def Sparse.wf {α : Type} [DecidableEq α] (dflt : Nat → α) (m : List (Nat × α)) : Bool := Sparse.wfAbove dflt 0 m

/-! ### Translation of a CPU address (20_memory.md R81) -/

/-- A byte of a bank: bank number, offset, the bank's description. -/
structure Place where
  bankNo : Nat
  offset : Nat
  bank   : Bank

/-- The key of the byte in the memory list. -/
def Place.key (p : Place) : Nat := p.bankNo * 65536 + p.offset

/-- The initial content of byte `offset` of a bank (10_state.md R64): its image, else its fill byte. -/
def initialByte (bank : Bank) (offset : Nat) : Byte :=
  match bank.image with
  | some image => image.getD offset bank.fill
  | none => bank.fill

/-- What an unlisted key of the memory list reads as. -/
def unlistedByte (cfg : Config) (key : Nat) : Byte :=
  match cfg.bank? (key / 65536) with
  | some bank => initialByte bank (key % 65536)
  | none => 0x00#8

/-- `SlotOf(a)` (20_memory.md R81). -/
def slotOf (cfg : Config) (a : Word) : Option Nat :=
  cfg.slots.findIdx? (fun slot => decide (slot.base ≤ a.toNat) && decide (a.toNat < slot.base + slot.size))

/-- `BankOf(a)` and `OffsetOf(a)` under a slot table (20_memory.md R81); none only where the configuration or the
table is ill formed. -/
def locate (cfg : Config) (slots : List Nat) (a : Word) : Option Place :=
  match slotOf cfg a with
  | none => none
  | some n =>
    match cfg.slots[n]?, slots[n]? with
    | some slot, some b =>
      match cfg.bank? b with
      | some bank => some ⟨b, a.toNat - slot.base, bank⟩
      | none => none
    | _, _ => none

/-- The canonical form of the memory list for a configuration (log 6). -/
def Memory.wf (cfg : Config) (mem : Memory) : Bool := Sparse.wf (unlistedByte cfg) mem

/-! ### Reads and writes without bus effects (20_memory.md R82 step 3, R83 step 3, R102) -/

/-- The byte the bank mapped at `a` answers: its fill byte when UNMAPPED, else its content (20_memory.md R82). -/
def peek (s : State) (a : Word) : Byte :=
  match locate s.cfg s.slots a with
  | some p =>
    match p.bank.kind with
    | .unmapped => p.bank.fill
    | .ram | .rom => Sparse.get (initialByte p.bank p.offset) p.key s.mem
  | none => Config.absentByte s.cfg a.toNat

/-- Whether the bank mapped at a place stores a write (20_memory.md R83, R102). -/
def stores (kind : BankKind) (allowRom : Bool) : Bool :=
  match kind with
  | .ram => true
  | .rom => allowRom
  | .unmapped => false

/-- The memory list after storing `v` at `a`, or the same list where the write is discarded. -/
def pokeMem (allowRom : Bool) (a : Word) (v : Byte) (s : State) : Memory :=
  match locate s.cfg s.slots a with
  | some p =>
    if stores p.bank.kind allowRom then Sparse.set (initialByte p.bank p.offset) p.key v s.mem else s.mem
  | none => s.mem

/-- Store `v` at `a` without bus effects. -/
def poke (allowRom : Bool) (a : Word) (v : Byte) (s : State) : State := { s with mem := pokeMem allowRom a v s }

/-- `readBlock(a0, len)` (20_memory.md R102). -/
def readBlock (s : State) : Word → Nat → List Byte
  | _, 0 => []
  | a, n + 1 => peek s a :: readBlock s (a + 1#16) n

/-- `writeBlock(a0, bytes, allowRom)` (20_memory.md R102). -/
def writeBlock (allowRom : Bool) : Word → List Byte → State → State
  | _, [], s => s
  | a, v :: rest, s => writeBlock allowRom (a + 1#16) rest (poke allowRom a v s)

/-! ### Watchpoints and activity (20_memory.md R95 to R98, R105) -/

/-- The count of watchpoints of a kind over `a` (10_state.md R54). -/
def Watch.count (w : Watch) (kind : AccessKind) (a : Word) : Nat :=
  match kind with
  | .read => Sparse.get 0 a.toNat w.read
  | .write => Sparse.get 0 a.toNat w.write

/-- The watchpoint check of a bus access (20_memory.md R95, R96): the first hit is kept. -/
def Watch.check (kind : AccessKind) (a : Word) (w : Watch) : Watch :=
  if 0 < w.count kind a ∧ w.hit = none then { w with hit := some (a, kind) } else w

/-- Change the count at one address. -/
def Watch.update (kind : AccessKind) (f : Nat → Nat) (a : Word) (w : Watch) : Watch :=
  match kind with
  | .read => { w with read := Sparse.set 0 a.toNat (f (w.count .read a)) w.read }
  | .write => { w with write := Sparse.set 0 a.toNat (f (w.count .write a)) w.write }

/-- Change the counts of the chosen kinds at `len` addresses from `a0` on, `mod 65536` (20_memory.md R97). -/
def Watch.updateRange (onRead onWrite : Bool) (f : Nat → Nat) : Word → Nat → Watch → Watch
  | _, 0, w => w
  | a, n + 1, w =>
    let w := if onRead then w.update .read f a else w
    let w := if onWrite then w.update .write f a else w
    Watch.updateRange onRead onWrite f (a + 1#16) n w

/-- `setWatchpoint(a0, len, kinds)` (20_memory.md R97). -/
def setWatchpoint (a0 : Word) (len : Nat) (onRead onWrite : Bool) (s : State) : State :=
  { s with watch := s.watch.updateRange onRead onWrite (fun n => n + 1) a0 len }

/-- `removeWatchpoint(a0, len, kinds)`: a count at 0 stays 0 (20_memory.md R97). -/
def removeWatchpoint (a0 : Word) (len : Nat) (onRead onWrite : Bool) (s : State) : State :=
  { s with watch := s.watch.updateRange onRead onWrite (fun n => n - 1) a0 len }

/-- No activity seen. -/
def noMarks : Marks := ⟨false, false, false⟩

/-- The activity marks of an address (10_state.md R56). -/
def marksAt (s : State) (a : Word) : Marks := Sparse.get noMarks a.toNat s.activity

/-- Mark an address as read or written (20_memory.md R105). -/
def markAccess (kind : AccessKind) (a : Word) (activity : List (Nat × Marks)) : List (Nat × Marks) :=
  let m := Sparse.get noMarks a.toNat activity
  match kind with
  | .read => Sparse.set noMarks a.toNat { m with read := true } activity
  | .write => Sparse.set noMarks a.toNat { m with written := true } activity

/-- Mark an address as executed (20_memory.md R105). -/
def markExecuted (a : Word) (activity : List (Nat × Marks)) : List (Nat × Marks) :=
  Sparse.set noMarks a.toNat { Sparse.get noMarks a.toNat activity with executed := true } activity

/-- Steps (1) and (2) of a bus access: watchpoint check, then activity (20_memory.md R82, R83). -/
def noteAccess (kind : AccessKind) (a : Word) (s : State) : State :=
  { s with watch := s.watch.check kind a, activity := markAccess kind a s.activity }

/-! ### Bus accesses (20_memory.md R82, R83, R90 to R93) -/

/-- `read8(a)` (20_memory.md R82). -/
def read8 (a : Word) (s : State) : Byte × State :=
  let s := noteAccess .read a s
  (peek s a, s)

/-- `write8(a, v)` (20_memory.md R83): discarded by ROM and UNMAPPED banks. -/
def write8 (a : Word) (v : Byte) (s : State) : State := poke false a v (noteAccess .write a s)

/-- `MemRead(a, 2)`: the low-address byte first (20_memory.md R91). -/
def memRead16 (a : Word) (s : State) : Word × State :=
  let (lo, s) := read8 a s
  let (hi, s) := read8 (a + 1#16) s
  (wordOf hi lo, s)

/-- `MemWrite(a, 2, v)`: the low-address byte first (20_memory.md R93). -/
def memWrite16 (a v : Word) (s : State) : State :=
  write8 (a + 1#16) (hiByte v) (write8 a (loByte v) s)

/-! ### Registers written by shared operations -/

/-- `pc <- target`. -/
def setPC (target : Word) (s : State) : State := { s with cpu := { s.cpu with pc := target } }

/-- `SP <- v`. -/
def setSP (v : Word) (s : State) : State := { s with cpu := { s.cpu with sp := v } }

/-- `IncR` on a register value: bit 7 is kept (10_state.md R43). -/
def nextR (r : Byte) : Byte := (r &&& 0x80#8) ||| ((r + 1#8) &&& 0x7F#8)

/-- `IncR` (10_state.md R43). -/
def incR (s : State) : State := { s with cpu := { s.cpu with r := nextR s.cpu.r } }

/-- Push a word: the high byte first, at the higher address (41_load16.md R244). -/
def pushWord (v : Word) (s : State) : State :=
  let s := setSP (s.cpu.sp - 1#16) s
  let s := write8 s.cpu.sp (hiByte v) s
  let s := setSP (s.cpu.sp - 1#16) s
  write8 s.cpu.sp (loByte v) s

/-- Pop a word: the low byte first (41_load16.md R247). -/
def popWord (s : State) : Word × State :=
  let (lo, s) := read8 s.cpu.sp s
  let s := setSP (s.cpu.sp + 1#16) s
  let (hi, s) := read8 s.cpu.sp s
  let s := setSP (s.cpu.sp + 1#16) s
  (wordOf hi lo, s)

/-- `T <- n` (00_scope.md R11). -/
def setTIns (n : Nat) (s : State) : State := { s with tIns := n }

/-- An instruction ends with its T-states. -/
def done (n : Nat) (s : State) : Result := .next (setTIns n s)

/-! ### Bank switching (20_memory.md R99 to R101) -/

/-- Apply assignments whose pairs have been tested, in list order. -/
def assignSlots (table : List Nat) (assignments : List (Nat × Nat)) : List Nat :=
  assignments.foldl (fun table sb => table.set sb.1 sb.2) table

/-- `setSlot(s, b)` (20_memory.md R99): the pair itself on rejection. -/
def setSlot (slot bank : Nat) (s : State) : Except (Nat × Nat) State :=
  if s.cfg.pairAllowed slot bank then .ok { s with slots := s.slots.set slot bank } else .error (slot, bank)

/-- The assignment one clause makes for a written value (20_memory.md R100; log 18). -/
def clauseAssign (v : Byte) : RuleClause → Option (Nat × Nat)
  | .maskCompare mask pattern slot bank => if v &&& mask = pattern then some (slot, bank) else none
  | .tableLookup mask shift slot banks => (banks[(v &&& mask).toNat >>> shift]?).map (fun bank => (slot, bank))
  | .arithOffset mask shift slot offset => some (slot, (v &&& mask).toNat >>> shift + offset)

/-- `rule(port, value, slot_table, script_state)` (20_memory.md R100). -/
def evalRule (rule : BankRule) (port : Word) (v : Byte) (slots : List Nat) (script : List Byte) : RuleResult :=
  match rule.body with
  | .clauses cs => .ok (cs.filterMap (clauseAssign v)) script
  | .script id => Config.bankScript id port v slots script

/-- Report a recoverable failure: the first of a step is kept (60_exceptions.md R503; log 26). -/
def recordFailure (f : Failure) (s : State) : State :=
  { s with failure := some (s.failure.getD f) }

/-- The bank-switch rule at a port write (20_memory.md R100, R101): all assignments or none. Where several assignments
fail the test, `BankSwitchRejected` carries the first of them in list order; the spec does not say which (DESIGN CHOICE,
log 36). -/
def applyBankRule (port : Word) (v : Byte) (s : State) : State :=
  match s.cfg.bankRule with
  | none => s
  | some rule =>
    if rule.ports.contains port then
      match evalRule rule port v s.slots s.script with
      | .ok assignments script =>
        match assignments.find? (fun sb => !s.cfg.pairAllowed sb.1 sb.2) with
        | some sb => recordFailure (.bankSwitchRejected sb.1 sb.2 port) s
        | none => { s with slots := assignSlots s.slots assignments, script := script }
      | .err message => recordFailure (.bankRuleError port message) s
      | .timeout => recordFailure (.bankRuleTimeout port) s
    else s

/-! ### Port dispatcher (20_memory.md R110 to R118) -/

/-- `ULA_PORT_EVENTS` applied to the two signals (60_exceptions.md R546). -/
def ulaPortEvent (dir : PortDir) (port : Word) (v : Option Byte) (s : State) : State :=
  let signals := s.cfg.portEventsOf dir port v s.ula.syncReq s.ula.nmiOn
  { s with ula := { s.ula with syncReq := signals.1, nmiOn := signals.2 } }

/-- One read handler (20_memory.md R110). The byte a ULA handler drives may depend on its two signals before and after
the event of this read (60_exceptions.md R546; DESIGN CHOICE, log 31). -/
def runRead (port : Word) (s : State) : ReadHandler → Byte × State
  | .constant v => (v, s)
  | .ula drives =>
    let t := ulaPortEvent .read port none s
    (if drives then
      Config.ulaReadByte port s.ula.syncReq s.ula.nmiOn t.ula.syncReq t.ula.nmiOn s.periph else s.cfg.portIdle, t)
  | .device id =>
    let answer := Config.deviceRead id port s.periph
    (answer.1, { s with periph := answer.2 })

/-- Combine two bytes by the port policy (20_memory.md R112). -/
def combineBytes (policy : PortPolicy) (a b : Byte) : Byte :=
  match policy with
  | .and => a &&& b
  | .or => a ||| b

/-- The generic read handlers in list order, each seeing the state the one before left (20_memory.md R112, R114). -/
def readGenerics (port : Word) : List ReadHandler → Byte → State → Byte × State
  | [], acc, s => (acc, s)
  | h :: rest, acc, s =>
    let (v, s) := runRead port s h
    readGenerics port rest (combineBytes s.cfg.portPolicy acc v) s

/-- `PortRead(port)` (20_memory.md R112). -/
def portRead (port : Word) (s : State) : Byte × State :=
  match s.cfg.readSpecific.find? (fun entry => entry.1 == port) with
  | some entry => runRead port s entry.2
  | none => readGenerics port s.cfg.readGeneric s.cfg.portIdle s

/-- One write handler (20_memory.md R110, R117). The bank-switch rule and the ULA act where a table lists their tag
(20_memory.md R118; DESIGN CHOICE, log 32). -/
def runWrite (port : Word) (v : Byte) (s : State) : WriteHandler → State
  | .record => { s with periph := s.periph ++ [hiByte port, loByte port, v] }
  | .ula => ulaPortEvent .write port (some v) s
  | .bankRule => applyBankRule port v s
  | .device id =>
    match Config.deviceWrite id port v s.periph with
    | .ok periph => { s with periph := periph }
    | .error message => recordFailure (.handlerError port message) s

/-- The generic write handlers, all of them, in list order (20_memory.md R115). -/
def writeGenerics (port : Word) (v : Byte) : List WriteHandler → State → State
  | [], s => s
  | h :: rest, s => writeGenerics port v rest (runWrite port v s h)

/-- `PortWrite(port, v)`: the specific handler, then every generic one (20_memory.md R115). -/
def portWrite (port : Word) (v : Byte) (s : State) : State :=
  let s :=
    match s.cfg.writeSpecific.find? (fun entry => entry.1 == port) with
    | some entry => runWrite port v s entry.2
    | none => s
  writeGenerics port v s.cfg.writeGeneric s

/-! ### Taking an interrupt and returning from one (60_exceptions.md R520 to R524) -/

/-- The bus byte is a restart opcode (60_exceptions.md R502). -/
def isRestart (bus : Byte) : Bool := bus &&& 0xC7#8 == 0xC7#8

/-- A maskable request is accepted (60_exceptions.md R521). -/
def acceptsMaskable (s : State) : Bool := s.cpu.iff1 && !s.cpu.eiShadow

/-- Item (1) of an entry: leave `HALT`, with `pc` past it (60_exceptions.md R520). -/
def leaveHalt (s : State) : State :=
  if s.cpu.halted then { s with cpu := { s.cpu with pc := s.cpu.pc + 1#16, halted := false } } else s

/-- The flip-flops at an entry: both cleared, but only `IFF1` by a non-maskable one (60_exceptions.md R520). -/
def disableInterrupts (nmi : Bool) (s : State) : State :=
  { s with cpu := { s.cpu with iff1 := false, iff2 := if nmi then s.cpu.iff2 else false } }

/-- What an accepted interrupt does before it takes its vector: leave `HALT`, one `IncR`, the flip-flops, push `pc`
(60_exceptions.md R520, R522). -/
def saveReturn (nmi : Bool) (s : State) : State :=
  let s := disableInterrupts nmi (incR (leaveHalt s))
  pushWord s.cpu.pc s

/-- The entry proper, once accepted: the T-states and the state with `pc` at the vector (60_exceptions.md R520,
R522). -/
def enterInterrupt (nmi : Bool) (bus : Byte) (s : State) : Nat × State :=
  let s := saveReturn nmi s
  if nmi then (11, setPC 0x0066#16 s)
  else
    match s.cpu.im with
    | .im0 => (13, setPC ((bus &&& 0x38#8).setWidth 16) s)
    | .im1 => (13, setPC 0x0038#16 s)
    | .im2 =>
      let (target, s) := memRead16 (wordOf s.cpu.i bus) s
      (19, setPC target s)

/-- `GenerateInterrupt(nmi, bus)` (60_exceptions.md R520): the T-states, 0 when not accepted. In mode 0 with a bus
byte that is no restart opcode it sets the mark `fault` and changes nothing else (R502). -/
def generateInterrupt (nmi : Bool) (bus : Byte) (s : State) : Nat × State :=
  if nmi then enterInterrupt true bus s
  else if !acceptsMaskable s then (0, s)
  else if s.cpu.im = .im0 ∧ !isRestart bus then (0, { s with fault := some (.im0Unsupported bus) })
  else enterInterrupt false bus s

/-- Return: pop the program counter (48_jump_call.md R453). -/
def returnFrom (s : State) : State :=
  let (target, s) := popWord s
  setPC target s

/-- Return from a non-maskable interrupt: pop the program counter and copy `IFF2` to `IFF1`
(48_jump_call.md R456, 60_exceptions.md R524). -/
def returnFromNmi (s : State) : State :=
  let s := returnFrom s
  { s with cpu := { s.cpu with iff1 := s.cpu.iff2 } }

/-- Call: push the program counter and go to `target` (48_jump_call.md R451). -/
def callTo (target : Word) (s : State) : State := setPC target (pushWord s.cpu.pc s)

end Sys2Proof.Machine
end

