-- ==== Sys2Proof/Machine/Operands.lean ====
section
/-! DEFINITION. Operand forms (30_encoding.md R143, R144, R155) and the register pairs (10_state.md R32). -/

namespace Sys2Proof.Machine

/-! ### The flag register as a byte (10_state.md R36) -/

/-- `F` as 8 bits: S Z Y H X PV N C, bit 7 first. -/
def Flags.toByte (f : Flags) : Byte :=
  BitVec.ofBool f.s ++ BitVec.ofBool f.z ++ BitVec.ofBool f.y ++ BitVec.ofBool f.h ++
    BitVec.ofBool f.x ++ BitVec.ofBool f.pv ++ BitVec.ofBool f.n ++ BitVec.ofBool f.c

/-- All 8 bits of `F` from a byte. -/
def Flags.ofByte (v : Byte) : Flags :=
  ⟨v.getLsbD 7, v.getLsbD 6, v.getLsbD 5, v.getLsbD 4, v.getLsbD 3, v.getLsbD 2, v.getLsbD 1, v.getLsbD 0⟩

/-! ### Pairs alias their halves (10_state.md R32) -/

/-- `BC = B : C`. -/
def bc (s : State) : Word := wordOf s.cpu.b s.cpu.c

/-- `DE = D : E`. -/
def de (s : State) : Word := wordOf s.cpu.d s.cpu.e

/-- `HL = H : L`. -/
def hl (s : State) : Word := wordOf s.cpu.h s.cpu.l

/-- `AF = A : F`. -/
def af (s : State) : Word := wordOf s.cpu.a s.cpu.f.toByte

/-- `BC <- v`. -/
def setBC (v : Word) (s : State) : State := { s with cpu := { s.cpu with b := hiByte v, c := loByte v } }

/-- `DE <- v`. -/
def setDE (v : Word) (s : State) : State := { s with cpu := { s.cpu with d := hiByte v, e := loByte v } }

/-- `HL <- v`. -/
def setHL (v : Word) (s : State) : State := { s with cpu := { s.cpu with h := hiByte v, l := loByte v } }

/-- `AF <- v`: all 8 bits of `F` (10_state.md R37). -/
def setAF (v : Word) (s : State) : State :=
  { s with cpu := { s.cpu with a := hiByte v, f := Flags.ofByte (loByte v) } }

/-- `IX <- v`. -/
def setIX (v : Word) (s : State) : State := { s with cpu := { s.cpu with ix := v } }

/-- `IY <- v`. -/
def setIY (v : Word) (s : State) : State := { s with cpu := { s.cpu with iy := v } }

/-- `A <- v`. -/
def setA (v : Byte) (s : State) : State := { s with cpu := { s.cpu with a := v } }

/-- `B <- v`. -/
def setB (v : Byte) (s : State) : State := { s with cpu := { s.cpu with b := v } }

/-! ### Register codes (30_encoding.md R143, R144) -/

/-- `R8[c]`. -/
def r8 (s : State) : Reg8 → Byte
  | .b => s.cpu.b
  | .c => s.cpu.c
  | .d => s.cpu.d
  | .e => s.cpu.e
  | .h => s.cpu.h
  | .l => s.cpu.l
  | .a => s.cpu.a

/-- `R8[c] <- v`. -/
def setR8 (r : Reg8) (v : Byte) (s : State) : State :=
  match r with
  | .b => { s with cpu := { s.cpu with b := v } }
  | .c => { s with cpu := { s.cpu with c := v } }
  | .d => { s with cpu := { s.cpu with d := v } }
  | .e => { s with cpu := { s.cpu with e := v } }
  | .h => { s with cpu := { s.cpu with h := v } }
  | .l => { s with cpu := { s.cpu with l := v } }
  | .a => { s with cpu := { s.cpu with a := v } }

/-- `R16[c]`. -/
def r16 (s : State) : Reg16 → Word
  | .bc => bc s
  | .de => de s
  | .hl => hl s
  | .sp => s.cpu.sp

/-- `R16[c] <- v`. -/
def setR16 (r : Reg16) (v : Word) (s : State) : State :=
  match r with
  | .bc => setBC v s
  | .de => setDE v s
  | .hl => setHL v s
  | .sp => setSP v s

/-- `R16AF[c]`. -/
def r16AF (s : State) : Reg16AF → Word
  | .bc => bc s
  | .de => de s
  | .hl => hl s
  | .af => af s

/-- `R16AF[c] <- v`. -/
def setR16AF (r : Reg16AF) (v : Word) (s : State) : State :=
  match r with
  | .bc => setBC v s
  | .de => setDE v s
  | .hl => setHL v s
  | .af => setAF v s

/-- `R16IX[c]`. -/
def r16IX (s : State) : Reg16IX → Word
  | .bc => bc s
  | .de => de s
  | .ix => s.cpu.ix
  | .sp => s.cpu.sp

/-- `R16IY[c]`. -/
def r16IY (s : State) : Reg16IY → Word
  | .bc => bc s
  | .de => de s
  | .iy => s.cpu.iy
  | .sp => s.cpu.sp

/-! ### Addresses (30_encoding.md R155, 20_memory.md R111) -/

/-- `sext16(d)` (00_scope.md R10). -/
def sext16 (d : Byte) : Word := d.signExtend 16

/-- The address of `(IX+d)`. -/
def eaIX (s : State) (disp : Byte) : Word := s.cpu.ix + sext16 disp

/-- The address of `(IY+d)`. -/
def eaIY (s : State) (disp : Byte) : Word := s.cpu.iy + sext16 disp

/-- The target of a relative jump: `pc0 + 2 + sext16(e)`. -/
def relTarget (s : State) (e : Byte) : Word := s.pc0 + 2#16 + sext16 e

/-- The port `A : n`. -/
def portAN (s : State) (n : Byte) : Word := wordOf s.cpu.a n

/-- `Cond(ccc)` (10_state.md R38). -/
def condHolds (s : State) : Cond → Bool
  | .nz => !s.cpu.f.z
  | .z => s.cpu.f.z
  | .nc => !s.cpu.f.c
  | .c => s.cpu.f.c
  | .po => !s.cpu.f.pv
  | .pe => s.cpu.f.pv
  | .p => !s.cpu.f.s
  | .m => s.cpu.f.s

end Sys2Proof.Machine
end

