-- ==== Sys2Proof/Machine/Flags.lean ====
section
/-! DEFINITION. Flag computations: `SetFlags` (10_state.md R37) and the helpers of the arithmetic, logic, rotate and
decimal-adjust rules (43_arith8.md R280 to R283, 45_arith16.md, 46_rotate_shift.md R380, R381, 44_general_cpu.md
R340). -/

namespace Sys2Proof.Machine

/-! ### SetFlags -/

/-- One argument of `SetFlags`: `-`, a value, or `any1` (10_state.md R37). -/
inductive FlagVal where
  | keep
  | put (v : Bool)
  | any1
  deriving DecidableEq, Repr

/-- The six arguments of `SetFlags` (10_state.md R37). -/
structure FlagSet where
  s  : FlagVal
  z  : FlagVal
  h  : FlagVal
  pv : FlagVal
  n  : FlagVal
  c  : FlagVal
  deriving DecidableEq, Repr

/-- The new value of a flag; draw number `k` when unspecified (log 4). -/
def FlagVal.apply (old : Bool) (k : Nat) : FlagVal → Bool
  | .keep => old
  | .put v => v
  | .any1 => Config.freeBit k

/-- `SetFlags` (10_state.md R37): bits 5 and 3 are always fresh draws. Each call has eight draws of its own. -/
def setFlags (fs : FlagSet) (s : State) : State :=
  let f := s.cpu.f
  let k := s.draws
  { s with
    cpu := { s.cpu with
      f := ⟨fs.s.apply f.s k, fs.z.apply f.z (k + 1), Config.freeBit (k + 6), fs.h.apply f.h (k + 2),
        Config.freeBit (k + 7), fs.pv.apply f.pv (k + 3), fs.n.apply f.n (k + 4), fs.c.apply f.c (k + 5)⟩ }
    draws := k + 8 }

/-! ### Helpers -/

/-- `parity8(v)`: an even number of 1 bits (00_scope.md R10). -/
def parity8 (v : Byte) : Bool :=
  !(v.getLsbD 0 ^^ v.getLsbD 1 ^^ v.getLsbD 2 ^^ v.getLsbD 3 ^^
    v.getLsbD 4 ^^ v.getLsbD 5 ^^ v.getLsbD 6 ^^ v.getLsbD 7)

/-- `ADD8(a, b, c)` (43_arith8.md R280). -/
def add8 (a b : Byte) (c : Bool) : Byte × FlagSet :=
  let r := a.toNat + b.toNat + c.toNat
  let res : Byte := BitVec.ofNat 8 r
  (res,
    { s := .put res.msb
      z := .put (res == 0#8)
      h := .put (decide (a.toNat % 16 + b.toNat % 16 + c.toNat > 15))
      pv := .put ((a ^^^ res) &&& (b ^^^ res) &&& 0x80#8 != 0#8)
      n := .put false
      c := .put (decide (r > 255)) })

/-- `SUB8(a, b, c)` (43_arith8.md R281). -/
def sub8 (a b : Byte) (c : Bool) : Byte × FlagSet :=
  let r : Int := (a.toNat : Int) - b.toNat - c.toNat
  let res : Byte := BitVec.ofInt 8 r
  (res,
    { s := .put res.msb
      z := .put (res == 0#8)
      h := .put (decide (((a.toNat % 16 : Nat) : Int) - (b.toNat % 16 : Nat) - c.toNat < 0))
      pv := .put ((a ^^^ b) &&& (a ^^^ res) &&& 0x80#8 != 0#8)
      n := .put true
      c := .put (decide (r < 0)) })

/-- `LOGIC(res, h)` (43_arith8.md R282). -/
def logicFlags (res : Byte) (h : Bool) : FlagSet :=
  { s := .put res.msb
    z := .put (res == 0#8)
    h := .put h
    pv := .put (parity8 res)
    n := .put false
    c := .put false }

/-- `INC8(v)` (43_arith8.md R283). -/
def inc8 (v : Byte) : Byte × FlagSet :=
  let res := v + 1#8
  (res,
    { s := .put res.msb
      z := .put (res == 0#8)
      h := .put (v &&& 0x0F#8 == 0x0F#8)
      pv := .put (v == 0x7F#8)
      n := .put false
      c := .keep })

/-- `DEC8(v)` (43_arith8.md R283). -/
def dec8 (v : Byte) : Byte × FlagSet :=
  let res := v - 1#8
  (res,
    { s := .put res.msb
      z := .put (res == 0#8)
      h := .put (v &&& 0x0F#8 == 0x00#8)
      pv := .put (v == 0x80#8)
      n := .put true
      c := .keep })

/-- `DAA` on `A` with the flags `C`, `H`, `N` (44_general_cpu.md R340). -/
def daaAdjust (a : Byte) (f : Flags) : Byte × FlagSet :=
  let low := a &&& 0x0F#8
  let c := f.c || decide (a > 0x99#8)
  let corr : Byte := (if f.h || decide (low > 9#8) then 0x06#8 else 0#8) ||| (if c then 0x60#8 else 0#8)
  let res := if f.n then a - corr else a + corr
  let h := if f.n then f.h && decide (low < 6#8) else decide (low > 9#8)
  (res,
    { s := .put res.msb
      z := .put (res == 0#8)
      h := .put h
      pv := .put (parity8 res)
      n := .keep
      c := .put c })

/-- The sum and flags of `ADD HL,ss`, `ADD IX,pp`, `ADD IY,rr` (45_arith16.md R360). -/
def add16 (a b : Word) : Word × FlagSet :=
  let r := a.toNat + b.toNat
  (BitVec.ofNat 16 r,
    { s := .keep
      z := .keep
      h := .put (decide (a.toNat % 4096 + b.toNat % 4096 > 4095))
      pv := .keep
      n := .put false
      c := .put (decide (r > 65535)) })

/-- The sum and flags of `ADC HL,ss` (45_arith16.md R361). -/
def adc16 (a b : Word) (c : Bool) : Word × FlagSet :=
  let r := a.toNat + b.toNat + c.toNat
  let res : Word := BitVec.ofNat 16 r
  (res,
    { s := .put res.msb
      z := .put (res == 0#16)
      h := .put (decide (a.toNat % 4096 + b.toNat % 4096 + c.toNat > 4095))
      pv := .put ((a ^^^ res) &&& (b ^^^ res) &&& 0x8000#16 != 0#16)
      n := .put false
      c := .put (decide (r > 65535)) })

/-- The difference and flags of `SBC HL,ss` (45_arith16.md R362). -/
def sbc16 (a b : Word) (c : Bool) : Word × FlagSet :=
  let r : Int := (a.toNat : Int) - b.toNat - c.toNat
  let res : Word := BitVec.ofInt 16 r
  (res,
    { s := .put res.msb
      z := .put (res == 0#16)
      h := .put (decide (((a.toNat % 4096 : Nat) : Int) - (b.toNat % 4096 : Nat) - c.toNat < 0))
      pv := .put ((a ^^^ b) &&& (a ^^^ res) &&& 0x8000#16 != 0#16)
      n := .put true
      c := .put (decide (r < 0)) })

/-! ### Rotates and shifts: the result and the bit moved out (46_rotate_shift.md R382 to R411) -/

/-- `v[6:0] : low`. -/
def shiftLeft1 (v : Byte) (low : Bool) : Byte := v.extractLsb' 0 7 ++ BitVec.ofBool low

/-- `high : v[7:1]`. -/
def shiftRight1 (high : Bool) (v : Byte) : Byte := BitVec.ofBool high ++ v.extractLsb' 1 7

/-- `RLC`: bit 7 enters bit 0 and `C` (R386). -/
def rlc8 (v : Byte) : Byte × Bool := (shiftLeft1 v (v.getLsbD 7), v.getLsbD 7)

/-- `RL`: the old `C` enters bit 0 (R390). -/
def rl8 (c : Bool) (v : Byte) : Byte × Bool := (shiftLeft1 v c, v.getLsbD 7)

/-- `RRC`: bit 0 enters bit 7 and `C` (R394). -/
def rrc8 (v : Byte) : Byte × Bool := (shiftRight1 (v.getLsbD 0) v, v.getLsbD 0)

/-- `RR`: the old `C` enters bit 7 (R398). -/
def rr8 (c : Bool) (v : Byte) : Byte × Bool := (shiftRight1 c v, v.getLsbD 0)

/-- `SLA`: 0 enters bit 0 (R402). -/
def sla8 (v : Byte) : Byte × Bool := (shiftLeft1 v false, v.getLsbD 7)

/-- `SRA`: bit 7 stays (R406). -/
def sra8 (v : Byte) : Byte × Bool := (shiftRight1 (v.getLsbD 7) v, v.getLsbD 0)

/-- `SRL`: 0 enters bit 7 (R410). -/
def srl8 (v : Byte) : Byte × Bool := (shiftRight1 false v, v.getLsbD 0)

/-- Flags of `RLCA`, `RLA`, `RRCA`, `RRA` (46_rotate_shift.md R380). -/
def accRotateFlags (c : Bool) : FlagSet :=
  { s := .keep, z := .keep, h := .put false, pv := .keep, n := .put false, c := .put c }

/-- Flags of the rotates and shifts after 0xCB (46_rotate_shift.md R381). -/
def shiftFlags (res : Byte) (c : Bool) : FlagSet :=
  { s := .put res.msb
    z := .put (res == 0#8)
    h := .put false
    pv := .put (parity8 res)
    n := .put false
    c := .put c }

/-- Flags of a byte loaded or read: `S`, `Z` from it, `H = 0`, `N = 0`, `C` kept (40_load8.md R217,
46_rotate_shift.md R414, 49_io.md R471). -/
def byteFlags (v : Byte) (pv : Bool) : FlagSet :=
  { s := .put v.msb, z := .put (v == 0#8), h := .put false, pv := .put pv, n := .put false, c := .keep }

/-- Flags of `BIT` on a byte (47_bit.md R420): `S` and `PV` are unspecified. -/
def bitFlags (v : Byte) (bit : Nat) : FlagSet :=
  { s := .any1, z := .put (!v.getLsbD bit), h := .put true, pv := .any1, n := .put false, c := .keep }

/-- Flags of the block transfers (42_exchange_block.md R266) for `BC` after the decrement. -/
def blockMoveFlags (count : Word) : FlagSet :=
  { s := .keep, z := .keep, h := .put false, pv := .put (count != 0#16), n := .put false, c := .keep }

/-- Flags of the block searches (42_exchange_block.md R270) for `A`, the byte and `BC` after the decrement. -/
def blockSearchFlags (a v : Byte) (count : Word) : FlagSet :=
  { (sub8 a v false).2 with pv := .put (count != 0#16), n := .put true, c := .keep }

/-- Flags of the block inputs and outputs (49_io.md R472): `S`, `H`, `PV` are unspecified. -/
def blockIoFlags (count : Byte) : FlagSet :=
  { s := .any1, z := .put (count == 0#8), h := .any1, pv := .any1, n := .put true, c := .keep }

/-! ### Read, compute, write back -/

/-- Replace a register by a result and set the flags of the computation. -/
def modifyReg (dst : Reg8) (f : Byte → Byte × FlagSet) (s : State) : State :=
  let r := f (r8 s dst)
  setFlags r.2 (setR8 dst r.1 s)

/-- Read the byte at an address, write the result back, then set the flags (43_arith8.md R325,
46_rotate_shift.md R387). -/
def modifyAt (a : Word) (f : Byte → Byte × FlagSet) (s : State) : State :=
  let (v, s) := read8 a s
  let r := f v
  setFlags r.2 (write8 a r.1 s)

/-- A rotate or shift with the flags of 46_rotate_shift.md R381. -/
def shiftOp (f : Byte → Byte × Bool) (v : Byte) : Byte × FlagSet :=
  let r := f v
  (r.1, shiftFlags r.1 r.2)

/-- A rotate of `A` with the flags of 46_rotate_shift.md R380. -/
def rotateA (f : Byte → Byte × Bool) (s : State) : State :=
  let r := f s.cpu.a
  setFlags (accRotateFlags r.2) (setA r.1 s)

end Sys2Proof.Machine
end

