-- ==== Sys2Proof/Machine/Arith16.lean ====
section
/-! DEFINITION. 16-bit arithmetic (45_arith16.md R360 to R370). -/

namespace Sys2Proof.Machine

/-- `ADD HL,ss` (45_arith16.md R360). -/
def execAddHLSS (ss : Reg16) (s : State) : Result :=
  let r := add16 (hl s) (r16 s ss)
  done 11 (setFlags r.2 (setHL r.1 s))

/-- `ADC HL,ss` (45_arith16.md R361). -/
def execAdcHLSS (ss : Reg16) (s : State) : Result :=
  let r := adc16 (hl s) (r16 s ss) s.cpu.f.c
  done 15 (setFlags r.2 (setHL r.1 s))

/-- `SBC HL,ss` (45_arith16.md R362). -/
def execSbcHLSS (ss : Reg16) (s : State) : Result :=
  let r := sbc16 (hl s) (r16 s ss) s.cpu.f.c
  done 15 (setFlags r.2 (setHL r.1 s))

/-- `ADD IX,pp` (45_arith16.md R363). -/
def execAddIXPP (pp : Reg16IX) (s : State) : Result :=
  let r := add16 s.cpu.ix (r16IX s pp)
  done 15 (setFlags r.2 (setIX r.1 s))

/-- `ADD IY,rr` (45_arith16.md R364). -/
def execAddIYRR (rr : Reg16IY) (s : State) : Result :=
  let r := add16 s.cpu.iy (r16IY s rr)
  done 15 (setFlags r.2 (setIY r.1 s))

/-- `INC ss` (45_arith16.md R365): no flag. -/
def execIncSS (ss : Reg16) (s : State) : Result := done 6 (setR16 ss (r16 s ss + 1#16) s)

/-- `INC IX` (45_arith16.md R366). -/
def execIncIX (s : State) : Result := done 10 (setIX (s.cpu.ix + 1#16) s)

/-- `INC IY` (45_arith16.md R367). -/
def execIncIY (s : State) : Result := done 10 (setIY (s.cpu.iy + 1#16) s)

/-- `DEC ss` (45_arith16.md R368): no flag. -/
def execDecSS (ss : Reg16) (s : State) : Result := done 6 (setR16 ss (r16 s ss - 1#16) s)

/-- `DEC IX` (45_arith16.md R369). -/
def execDecIX (s : State) : Result := done 10 (setIX (s.cpu.ix - 1#16) s)

/-- `DEC IY` (45_arith16.md R370). -/
def execDecIY (s : State) : Result := done 10 (setIY (s.cpu.iy - 1#16) s)

end Sys2Proof.Machine
end

