-- ==== Sys2Proof/Machine/Arith8.lean ====
section
/-! DEFINITION. 8-bit arithmetic and logic (43_arith8.md R284 to R331). -/

namespace Sys2Proof.Machine

/-- `A <- A + v` with its flags (43_arith8.md R284). -/
def addIn (v : Byte) (s : State) : State :=
  let r := add8 s.cpu.a v false
  setFlags r.2 (setA r.1 s)

/-- `A <- A + v + C` with its flags (43_arith8.md R289). -/
def adcIn (v : Byte) (s : State) : State :=
  let r := add8 s.cpu.a v s.cpu.f.c
  setFlags r.2 (setA r.1 s)

/-- `A <- A - v` with its flags (43_arith8.md R294). -/
def subIn (v : Byte) (s : State) : State :=
  let r := sub8 s.cpu.a v false
  setFlags r.2 (setA r.1 s)

/-- `A <- A - v - C` with its flags (43_arith8.md R299). -/
def sbcIn (v : Byte) (s : State) : State :=
  let r := sub8 s.cpu.a v s.cpu.f.c
  setFlags r.2 (setA r.1 s)

/-- `A <- A & v` with its flags (43_arith8.md R304). -/
def andIn (v : Byte) (s : State) : State :=
  let r := s.cpu.a &&& v
  setFlags (logicFlags r true) (setA r s)

/-- `A <- A | v` with its flags (43_arith8.md R309). -/
def orIn (v : Byte) (s : State) : State :=
  let r := s.cpu.a ||| v
  setFlags (logicFlags r false) (setA r s)

/-- `A <- A ^ v` with its flags (43_arith8.md R314). -/
def xorIn (v : Byte) (s : State) : State :=
  let r := s.cpu.a ^^^ v
  setFlags (logicFlags r false) (setA r s)

/-- The flags of `A - v`; `A` keeps its value (43_arith8.md R319). -/
def cpIn (v : Byte) (s : State) : State :=
  setFlags (sub8 s.cpu.a v false).2 s

/-- `ADD A,r` (43_arith8.md R284). -/
def execAddAR (src : Reg8) (s : State) : Result := done 4 (addIn (r8 s src) s)

/-- `ADD A,n` (43_arith8.md R285). -/
def execAddAN (n : Byte) (s : State) : Result := done 7 (addIn n s)

/-- `ADD A,(HL)` (43_arith8.md R286). -/
def execAddAAtHL (s : State) : Result :=
  let (v, s) := read8 (hl s) s
  done 7 (addIn v s)

/-- `ADD A,(IX+d)` (43_arith8.md R287). -/
def execAddAAtIX (disp : Byte) (s : State) : Result :=
  let (v, s) := read8 (eaIX s disp) s
  done 19 (addIn v s)

/-- `ADD A,(IY+d)` (43_arith8.md R288). -/
def execAddAAtIY (disp : Byte) (s : State) : Result :=
  let (v, s) := read8 (eaIY s disp) s
  done 19 (addIn v s)

/-- `ADC A,r` (43_arith8.md R289). -/
def execAdcAR (src : Reg8) (s : State) : Result := done 4 (adcIn (r8 s src) s)

/-- `ADC A,n` (43_arith8.md R290). -/
def execAdcAN (n : Byte) (s : State) : Result := done 7 (adcIn n s)

/-- `ADC A,(HL)` (43_arith8.md R291). -/
def execAdcAAtHL (s : State) : Result :=
  let (v, s) := read8 (hl s) s
  done 7 (adcIn v s)

/-- `ADC A,(IX+d)` (43_arith8.md R292). -/
def execAdcAAtIX (disp : Byte) (s : State) : Result :=
  let (v, s) := read8 (eaIX s disp) s
  done 19 (adcIn v s)

/-- `ADC A,(IY+d)` (43_arith8.md R293). -/
def execAdcAAtIY (disp : Byte) (s : State) : Result :=
  let (v, s) := read8 (eaIY s disp) s
  done 19 (adcIn v s)

/-- `SUB r` (43_arith8.md R294). -/
def execSubR (src : Reg8) (s : State) : Result := done 4 (subIn (r8 s src) s)

/-- `SUB n` (43_arith8.md R295). -/
def execSubN (n : Byte) (s : State) : Result := done 7 (subIn n s)

/-- `SUB (HL)` (43_arith8.md R296). -/
def execSubAtHL (s : State) : Result :=
  let (v, s) := read8 (hl s) s
  done 7 (subIn v s)

/-- `SUB (IX+d)` (43_arith8.md R297). -/
def execSubAtIX (disp : Byte) (s : State) : Result :=
  let (v, s) := read8 (eaIX s disp) s
  done 19 (subIn v s)

/-- `SUB (IY+d)` (43_arith8.md R298). -/
def execSubAtIY (disp : Byte) (s : State) : Result :=
  let (v, s) := read8 (eaIY s disp) s
  done 19 (subIn v s)

/-- `SBC A,r` (43_arith8.md R299). -/
def execSbcAR (src : Reg8) (s : State) : Result := done 4 (sbcIn (r8 s src) s)

/-- `SBC A,n` (43_arith8.md R300). -/
def execSbcAN (n : Byte) (s : State) : Result := done 7 (sbcIn n s)

/-- `SBC A,(HL)` (43_arith8.md R301). -/
def execSbcAAtHL (s : State) : Result :=
  let (v, s) := read8 (hl s) s
  done 7 (sbcIn v s)

/-- `SBC A,(IX+d)` (43_arith8.md R302). -/
def execSbcAAtIX (disp : Byte) (s : State) : Result :=
  let (v, s) := read8 (eaIX s disp) s
  done 19 (sbcIn v s)

/-- `SBC A,(IY+d)` (43_arith8.md R303). -/
def execSbcAAtIY (disp : Byte) (s : State) : Result :=
  let (v, s) := read8 (eaIY s disp) s
  done 19 (sbcIn v s)

/-- `AND r` (43_arith8.md R304). -/
def execAndR (src : Reg8) (s : State) : Result := done 4 (andIn (r8 s src) s)

/-- `AND n` (43_arith8.md R305). -/
def execAndN (n : Byte) (s : State) : Result := done 7 (andIn n s)

/-- `AND (HL)` (43_arith8.md R306). -/
def execAndAtHL (s : State) : Result :=
  let (v, s) := read8 (hl s) s
  done 7 (andIn v s)

/-- `AND (IX+d)` (43_arith8.md R307). -/
def execAndAtIX (disp : Byte) (s : State) : Result :=
  let (v, s) := read8 (eaIX s disp) s
  done 19 (andIn v s)

/-- `AND (IY+d)` (43_arith8.md R308). -/
def execAndAtIY (disp : Byte) (s : State) : Result :=
  let (v, s) := read8 (eaIY s disp) s
  done 19 (andIn v s)

/-- `OR r` (43_arith8.md R309). -/
def execOrR (src : Reg8) (s : State) : Result := done 4 (orIn (r8 s src) s)

/-- `OR n` (43_arith8.md R310). -/
def execOrN (n : Byte) (s : State) : Result := done 7 (orIn n s)

/-- `OR (HL)` (43_arith8.md R311). -/
def execOrAtHL (s : State) : Result :=
  let (v, s) := read8 (hl s) s
  done 7 (orIn v s)

/-- `OR (IX+d)` (43_arith8.md R312). -/
def execOrAtIX (disp : Byte) (s : State) : Result :=
  let (v, s) := read8 (eaIX s disp) s
  done 19 (orIn v s)

/-- `OR (IY+d)` (43_arith8.md R313). -/
def execOrAtIY (disp : Byte) (s : State) : Result :=
  let (v, s) := read8 (eaIY s disp) s
  done 19 (orIn v s)

/-- `XOR r` (43_arith8.md R314). -/
def execXorR (src : Reg8) (s : State) : Result := done 4 (xorIn (r8 s src) s)

/-- `XOR n` (43_arith8.md R315). -/
def execXorN (n : Byte) (s : State) : Result := done 7 (xorIn n s)

/-- `XOR (HL)` (43_arith8.md R316). -/
def execXorAtHL (s : State) : Result :=
  let (v, s) := read8 (hl s) s
  done 7 (xorIn v s)

/-- `XOR (IX+d)` (43_arith8.md R317). -/
def execXorAtIX (disp : Byte) (s : State) : Result :=
  let (v, s) := read8 (eaIX s disp) s
  done 19 (xorIn v s)

/-- `XOR (IY+d)` (43_arith8.md R318). -/
def execXorAtIY (disp : Byte) (s : State) : Result :=
  let (v, s) := read8 (eaIY s disp) s
  done 19 (xorIn v s)

/-- `CP r` (43_arith8.md R319). -/
def execCpR (src : Reg8) (s : State) : Result := done 4 (cpIn (r8 s src) s)

/-- `CP n` (43_arith8.md R320). -/
def execCpN (n : Byte) (s : State) : Result := done 7 (cpIn n s)

/-- `CP (HL)` (43_arith8.md R321). -/
def execCpAtHL (s : State) : Result :=
  let (v, s) := read8 (hl s) s
  done 7 (cpIn v s)

/-- `CP (IX+d)` (43_arith8.md R322). -/
def execCpAtIX (disp : Byte) (s : State) : Result :=
  let (v, s) := read8 (eaIX s disp) s
  done 19 (cpIn v s)

/-- `CP (IY+d)` (43_arith8.md R323). -/
def execCpAtIY (disp : Byte) (s : State) : Result :=
  let (v, s) := read8 (eaIY s disp) s
  done 19 (cpIn v s)

/-- `INC r` (43_arith8.md R324). -/
def execIncR (dst : Reg8) (s : State) : Result := done 4 (modifyReg dst inc8 s)

/-- `INC (HL)` (43_arith8.md R325). -/
def execIncAtHL (s : State) : Result := done 11 (modifyAt (hl s) inc8 s)

/-- `INC (IX+d)` (43_arith8.md R326). -/
def execIncAtIX (disp : Byte) (s : State) : Result := done 23 (modifyAt (eaIX s disp) inc8 s)

/-- `INC (IY+d)` (43_arith8.md R327). -/
def execIncAtIY (disp : Byte) (s : State) : Result := done 23 (modifyAt (eaIY s disp) inc8 s)

/-- `DEC r` (43_arith8.md R328). -/
def execDecR (dst : Reg8) (s : State) : Result := done 4 (modifyReg dst dec8 s)

/-- `DEC (HL)` (43_arith8.md R329). -/
def execDecAtHL (s : State) : Result := done 11 (modifyAt (hl s) dec8 s)

/-- `DEC (IX+d)` (43_arith8.md R330). -/
def execDecAtIX (disp : Byte) (s : State) : Result := done 23 (modifyAt (eaIX s disp) dec8 s)

/-- `DEC (IY+d)` (43_arith8.md R331). -/
def execDecAtIY (disp : Byte) (s : State) : Result := done 23 (modifyAt (eaIY s disp) dec8 s)

end Sys2Proof.Machine
end

