-- ==== Sys2Proof/Machine/Bit.lean ====
section
/-! DEFINITION. Bit test, set and reset (47_bit.md R420 to R431). -/

namespace Sys2Proof.Machine

/-- `v` with bit `bit` set (47_bit.md R424). -/
def withBit (v : Byte) (bit : Nat) : Byte := v ||| (1#8 <<< bit)

/-- `v` with bit `bit` cleared (47_bit.md R428). -/
def withoutBit (v : Byte) (bit : Nat) : Byte := v &&& ~~~(1#8 <<< bit)

/-- Read the byte at `a`, change it, write it back; no flag (47_bit.md R425). -/
def rewriteAt (a : Word) (f : Byte → Byte) (s : State) : State :=
  let (v, s) := read8 a s
  write8 a (f v) s

/-- `BIT b,r` (47_bit.md R420). -/
def execBitBR (bit : Nat) (src : Reg8) (s : State) : Result := done 8 (setFlags (bitFlags (r8 s src) bit) s)

/-- `BIT b,(HL)` (47_bit.md R421). -/
def execBitBAtHL (bit : Nat) (s : State) : Result :=
  let (v, s) := read8 (hl s) s
  done 12 (setFlags (bitFlags v bit) s)

/-- `BIT b,(IX+d)` (47_bit.md R422). -/
def execBitBAtIX (bit : Nat) (disp : Byte) (s : State) : Result :=
  let (v, s) := read8 (eaIX s disp) s
  done 20 (setFlags (bitFlags v bit) s)

/-- `BIT b,(IY+d)` (47_bit.md R423). -/
def execBitBAtIY (bit : Nat) (disp : Byte) (s : State) : Result :=
  let (v, s) := read8 (eaIY s disp) s
  done 20 (setFlags (bitFlags v bit) s)

/-- `SET b,r` (47_bit.md R424). -/
def execSetBR (bit : Nat) (dst : Reg8) (s : State) : Result := done 8 (setR8 dst (withBit (r8 s dst) bit) s)

/-- `SET b,(HL)` (47_bit.md R425). -/
def execSetBAtHL (bit : Nat) (s : State) : Result := done 15 (rewriteAt (hl s) (fun v => withBit v bit) s)

/-- `SET b,(IX+d)` (47_bit.md R426). -/
def execSetBAtIX (bit : Nat) (disp : Byte) (s : State) : Result :=
  done 23 (rewriteAt (eaIX s disp) (fun v => withBit v bit) s)

/-- `SET b,(IY+d)` (47_bit.md R427). -/
def execSetBAtIY (bit : Nat) (disp : Byte) (s : State) : Result :=
  done 23 (rewriteAt (eaIY s disp) (fun v => withBit v bit) s)

/-- `RES b,r` (47_bit.md R428). -/
def execResBR (bit : Nat) (dst : Reg8) (s : State) : Result := done 8 (setR8 dst (withoutBit (r8 s dst) bit) s)

/-- `RES b,(HL)` (47_bit.md R429). -/
def execResBAtHL (bit : Nat) (s : State) : Result := done 15 (rewriteAt (hl s) (fun v => withoutBit v bit) s)

/-- `RES b,(IX+d)` (47_bit.md R430). -/
def execResBAtIX (bit : Nat) (disp : Byte) (s : State) : Result :=
  done 23 (rewriteAt (eaIX s disp) (fun v => withoutBit v bit) s)

/-- `RES b,(IY+d)` (47_bit.md R431). -/
def execResBAtIY (bit : Nat) (disp : Byte) (s : State) : Result :=
  done 23 (rewriteAt (eaIY s disp) (fun v => withoutBit v bit) s)

end Sys2Proof.Machine
end

