-- ==== Sys2Proof/Machine/ExchangeBlock.lean ====
section
/-! DEFINITION. Exchanges, block transfers and block searches (42_exchange_block.md R260 to R273). A repeating form runs
one iteration (92_eei_decisions.md D33). -/

namespace Sys2Proof.Machine

/-- The common part of `EX (SP),HL`, `EX (SP),IX`, `EX (SP),IY`: the word on the stack and the state with `v`
stored there, in the order of accesses of the rule (42_exchange_block.md R263). -/
def exchangeTop (v : Word) (s : State) : Word × State :=
  let (lo, s) := read8 s.cpu.sp s
  let (hi, s) := read8 (s.cpu.sp + 1#16) s
  let s := write8 (s.cpu.sp + 1#16) (hiByte v) s
  let s := write8 s.cpu.sp (loByte v) s
  (wordOf hi lo, s)

/-- One byte of a block transfer: `step` is 1 or -1 (42_exchange_block.md R266, R268). -/
def blockMove (step : Word) (s : State) : State :=
  let (v, s) := read8 (hl s) s
  let s := write8 (de s) v s
  let s := setHL (hl s + step) s
  let s := setDE (de s + step) s
  let s := setBC (bc s - 1#16) s
  setFlags (blockMoveFlags (bc s)) s

/-- One byte of a block search: `step` is 1 or -1 (42_exchange_block.md R270, R272). -/
def blockSearch (step : Word) (s : State) : State :=
  let (v, s) := read8 (hl s) s
  let s := setHL (hl s + step) s
  let s := setBC (bc s - 1#16) s
  setFlags (blockSearchFlags s.cpu.a v (bc s)) s

/-- The end of a repeating block instruction: while it must go on, `pc <- pc0` and 21 T-states, else 16
(42_exchange_block.md R267). -/
def repeatWhile (more : Bool) (s : State) : Result :=
  if more then done 21 (setPC s.pc0 s) else done 16 s

/-- `EX DE,HL` (42_exchange_block.md R260). -/
def execExDEHL (s : State) : Result := done 4 (setHL (de s) (setDE (hl s) s))

/-- `EX AF,AF'` (42_exchange_block.md R261): a move of all 8 bits of `F`. -/
def execExAFAF (s : State) : Result :=
  done 4 { s with cpu := { s.cpu with
    a := s.cpu.altA, f := s.cpu.altF, altA := s.cpu.a, altF := s.cpu.f } }

/-- `EXX` (42_exchange_block.md R262). -/
def execExx (s : State) : Result :=
  done 4 { s with cpu := { s.cpu with
    b := s.cpu.altB, c := s.cpu.altC, altB := s.cpu.b, altC := s.cpu.c
    d := s.cpu.altD, e := s.cpu.altE, altD := s.cpu.d, altE := s.cpu.e
    h := s.cpu.altH, l := s.cpu.altL, altH := s.cpu.h, altL := s.cpu.l } }

/-- `EX (SP),HL` (42_exchange_block.md R263). -/
def execExAtSPHL (s : State) : Result :=
  let (v, s) := exchangeTop (hl s) s
  done 19 (setHL v s)

/-- `EX (SP),IX` (42_exchange_block.md R264). -/
def execExAtSPIX (s : State) : Result :=
  let (v, s) := exchangeTop s.cpu.ix s
  done 23 (setIX v s)

/-- `EX (SP),IY` (42_exchange_block.md R265). -/
def execExAtSPIY (s : State) : Result :=
  let (v, s) := exchangeTop s.cpu.iy s
  done 23 (setIY v s)

/-- `LDI` (42_exchange_block.md R266). -/
def execLdi (s : State) : Result := done 16 (blockMove 1#16 s)

/-- `LDIR` (42_exchange_block.md R267): one iteration. -/
def execLdir (s : State) : Result :=
  let s := blockMove 1#16 s
  repeatWhile (bc s != 0#16) s

/-- `LDD` (42_exchange_block.md R268). -/
def execLdd (s : State) : Result := done 16 (blockMove (-1#16) s)

/-- `LDDR` (42_exchange_block.md R269): one iteration. -/
def execLddr (s : State) : Result :=
  let s := blockMove (-1#16) s
  repeatWhile (bc s != 0#16) s

/-- `CPI` (42_exchange_block.md R270). -/
def execCpi (s : State) : Result := done 16 (blockSearch 1#16 s)

/-- `CPIR` (42_exchange_block.md R271): one iteration. -/
def execCpir (s : State) : Result :=
  let s := blockSearch 1#16 s
  repeatWhile (bc s != 0#16 && !s.cpu.f.z) s

/-- `CPD` (42_exchange_block.md R272). -/
def execCpd (s : State) : Result := done 16 (blockSearch (-1#16) s)

/-- `CPDR` (42_exchange_block.md R273): one iteration. -/
def execCpdr (s : State) : Result :=
  let s := blockSearch (-1#16) s
  repeatWhile (bc s != 0#16 && !s.cpu.f.z) s

end Sys2Proof.Machine
end

