-- ==== Sys2Proof/Machine/GeneralCpu.lean ====
section
/-! DEFINITION. General arithmetic and CPU control (44_general_cpu.md R340 to R351). -/

namespace Sys2Proof.Machine

/-- `DAA` (44_general_cpu.md R340). -/
def execDaa (s : State) : Result :=
  let r := daaAdjust s.cpu.a s.cpu.f
  done 4 (setFlags r.2 (setA r.1 s))

/-- `CPL` (44_general_cpu.md R341). -/
def execCpl (s : State) : Result :=
  let fs : FlagSet := { s := .keep, z := .keep, h := .put true, pv := .keep, n := .put true, c := .keep }
  done 4 (setFlags fs (setA (~~~s.cpu.a) s))

/-- `NEG` (44_general_cpu.md R342). -/
def execNeg (s : State) : Result :=
  let r := sub8 0#8 s.cpu.a false
  done 8 (setFlags r.2 (setA r.1 s))

/-- `CCF` (44_general_cpu.md R343). -/
def execCcf (s : State) : Result :=
  let c := s.cpu.f.c
  let fs : FlagSet := { s := .keep, z := .keep, h := .put c, pv := .keep, n := .put false, c := .put (!c) }
  done 4 (setFlags fs s)

/-- `SCF` (44_general_cpu.md R344). -/
def execScf (s : State) : Result :=
  let fs : FlagSet := { s := .keep, z := .keep, h := .put false, pv := .keep, n := .put false, c := .put true }
  done 4 (setFlags fs s)

/-- `NOP` (44_general_cpu.md R345). -/
def execNop (s : State) : Result := done 4 s

/-- `HALT` (44_general_cpu.md R346): `pc` stays on the opcode. -/
def execHalt (s : State) : Result := done 4 { s with cpu := { s.cpu with halted := true, pc := s.pc0 } }

/-- `DI` (44_general_cpu.md R347). -/
def execDi (s : State) : Result := done 4 { s with cpu := { s.cpu with iff1 := false, iff2 := false } }

/-- `EI` (44_general_cpu.md R348). -/
def execEi (s : State) : Result :=
  done 4 { s with cpu := { s.cpu with iff1 := true, iff2 := true, eiShadow := true } }

/-- `IM 0` (44_general_cpu.md R349). -/
def execIm0 (s : State) : Result := done 8 { s with cpu := { s.cpu with im := .im0 } }

/-- `IM 1` (44_general_cpu.md R350). -/
def execIm1 (s : State) : Result := done 8 { s with cpu := { s.cpu with im := .im1 } }

/-- `IM 2` (44_general_cpu.md R351). -/
def execIm2 (s : State) : Result := done 8 { s with cpu := { s.cpu with im := .im2 } }

end Sys2Proof.Machine
end

