-- ==== Sys2Proof/Machine/Io.lean ====
section
/-! DEFINITION. Input and output (49_io.md R470 to R481). -/

namespace Sys2Proof.Machine

/-- One byte of a block input: the port is `BC` with `B` before its decrement (49_io.md R472, R474). -/
def blockInput (step : Word) (s : State) : State :=
  let (v, s) := portRead (bc s) s
  let s := write8 (hl s) v s
  let s := setB (s.cpu.b - 1#8) s
  let s := setHL (hl s + step) s
  setFlags (blockIoFlags s.cpu.b) s

/-- One byte of a block output: the port is `BC` with `B` after its decrement (49_io.md R478, R480). -/
def blockOutput (step : Word) (s : State) : State :=
  let (v, s) := read8 (hl s) s
  let s := setB (s.cpu.b - 1#8) s
  let s := portWrite (bc s) v s
  let s := setHL (hl s + step) s
  setFlags (blockIoFlags s.cpu.b) s

/-- The end of a repeating block input or output: again while `B` is not 0 (49_io.md R473, R479). -/
def repeatWhileB (s : State) : Result :=
  if s.cpu.b != 0#8 then done 21 (setPC s.pc0 s) else done 16 s

/-- `IN A,(n)` (49_io.md R470): no flag. -/
def execInAN (n : Byte) (s : State) : Result :=
  let (v, s) := portRead (portAN s n) s
  done 11 (setA v s)

/-- `IN r,(C)` (49_io.md R471). -/
def execInRC (dst : Reg8) (s : State) : Result :=
  let (v, s) := portRead (bc s) s
  done 12 (setFlags (byteFlags v (parity8 v)) (setR8 dst v s))

/-- `INI` (49_io.md R472). -/
def execIni (s : State) : Result := done 16 (blockInput 1#16 s)

/-- `INIR` (49_io.md R473): one iteration. -/
def execInir (s : State) : Result := repeatWhileB (blockInput 1#16 s)

/-- `IND` (49_io.md R474). -/
def execInd (s : State) : Result := done 16 (blockInput (-1#16) s)

/-- `INDR` (49_io.md R475): one iteration. -/
def execIndr (s : State) : Result := repeatWhileB (blockInput (-1#16) s)

/-- `OUT (n),A` (49_io.md R476). -/
def execOutNA (n : Byte) (s : State) : Result := done 11 (portWrite (portAN s n) s.cpu.a s)

/-- `OUT (C),r` (49_io.md R477). -/
def execOutCR (src : Reg8) (s : State) : Result := done 12 (portWrite (bc s) (r8 s src) s)

/-- `OUTI` (49_io.md R478). -/
def execOuti (s : State) : Result := done 16 (blockOutput 1#16 s)

/-- `OTIR` (49_io.md R479): one iteration. -/
def execOtir (s : State) : Result := repeatWhileB (blockOutput 1#16 s)

/-- `OUTD` (49_io.md R480). -/
def execOutd (s : State) : Result := done 16 (blockOutput (-1#16) s)

/-- `OTDR` (49_io.md R481): one iteration. -/
def execOtdr (s : State) : Result := repeatWhileB (blockOutput (-1#16) s)

end Sys2Proof.Machine
end

