-- ==== Sys2Proof/Machine/JumpCall.lean ====
section
/-! DEFINITION. Jumps, calls, returns and restarts (48_jump_call.md R440 to R457). -/

namespace Sys2Proof.Machine

/-- A conditional relative jump: 12 T-states when taken, 7 when not (48_jump_call.md R443). -/
def relJumpIf (taken : Bool) (e : Byte) (s : State) : Result :=
  if taken then done 12 (setPC (relTarget s e) s) else done 7 s

/-- `JP nn` (48_jump_call.md R440). -/
def execJpNN (nn : Word) (s : State) : Result := done 10 (setPC nn s)

/-- `JP cc,nn` (48_jump_call.md R441). -/
def execJpCCNN (cc : Cond) (nn : Word) (s : State) : Result := done 10 (if condHolds s cc then setPC nn s else s)

/-- `JR e` (48_jump_call.md R442). -/
def execJr (e : Byte) (s : State) : Result := done 12 (setPC (relTarget s e) s)

/-- `JR C,e` (48_jump_call.md R443). -/
def execJrC (e : Byte) (s : State) : Result := relJumpIf s.cpu.f.c e s

/-- `JR NC,e` (48_jump_call.md R444). -/
def execJrNC (e : Byte) (s : State) : Result := relJumpIf (!s.cpu.f.c) e s

/-- `JR Z,e` (48_jump_call.md R445). -/
def execJrZ (e : Byte) (s : State) : Result := relJumpIf s.cpu.f.z e s

/-- `JR NZ,e` (48_jump_call.md R446). -/
def execJrNZ (e : Byte) (s : State) : Result := relJumpIf (!s.cpu.f.z) e s

/-- `JP (HL)` (48_jump_call.md R447): the value of `HL` itself. -/
def execJpHL (s : State) : Result := done 4 (setPC (hl s) s)

/-- `JP (IX)` (48_jump_call.md R448). -/
def execJpIX (s : State) : Result := done 8 (setPC s.cpu.ix s)

/-- `JP (IY)` (48_jump_call.md R449). -/
def execJpIY (s : State) : Result := done 8 (setPC s.cpu.iy s)

/-- `DJNZ e` (48_jump_call.md R450). -/
def execDjnz (e : Byte) (s : State) : Result :=
  let s := setB (s.cpu.b - 1#8) s
  if s.cpu.b != 0#8 then done 13 (setPC (relTarget s e) s) else done 8 s

/-- `CALL nn` (48_jump_call.md R451). -/
def execCallNN (nn : Word) (s : State) : Result := done 17 (callTo nn s)

/-- `CALL cc,nn` (48_jump_call.md R452). -/
def execCallCCNN (cc : Cond) (nn : Word) (s : State) : Result :=
  if condHolds s cc then done 17 (callTo nn s) else done 10 s

/-- `RET` (48_jump_call.md R453). -/
def execRet (s : State) : Result := done 10 (returnFrom s)

/-- `RET cc` (48_jump_call.md R454). -/
def execRetCC (cc : Cond) (s : State) : Result := if condHolds s cc then done 11 (returnFrom s) else done 5 s

/-- `RETI` (48_jump_call.md R455): the flip-flops are not changed. -/
def execReti (s : State) : Result := done 14 (returnFrom s)

/-- `RETN` (48_jump_call.md R456). -/
def execRetn (s : State) : Result := done 14 (returnFromNmi s)

/-- `RST p` (48_jump_call.md R457). -/
def execRst (target : Word) (s : State) : Result := done 11 (callTo target s)

end Sys2Proof.Machine
end

