-- ==== Sys2Proof/Machine/Load16.lean ====
section
/-! DEFINITION. The 16-bit loads, push and pop (41_load16.md R230 to R249). -/

namespace Sys2Proof.Machine

/-- `LD dd,nn` (41_load16.md R230). -/
def execLdDDNN (dd : Reg16) (nn : Word) (s : State) : Result := done 10 (setR16 dd nn s)

/-- `LD IX,nn` (41_load16.md R231). -/
def execLdIXNN (nn : Word) (s : State) : Result := done 14 (setIX nn s)

/-- `LD IY,nn` (41_load16.md R232). -/
def execLdIYNN (nn : Word) (s : State) : Result := done 14 (setIY nn s)

/-- `LD HL,(nn)` (41_load16.md R233): `L` from `nn`, then `H` from `nn + 1`. -/
def execLdHLAtNN (nn : Word) (s : State) : Result :=
  let (v, s) := memRead16 nn s
  done 16 (setHL v s)

/-- `LD dd,(nn)` (41_load16.md R234). -/
def execLdDDAtNN (dd : Reg16) (nn : Word) (s : State) : Result :=
  let (v, s) := memRead16 nn s
  done 20 (setR16 dd v s)

/-- `LD IX,(nn)` (41_load16.md R235). -/
def execLdIXAtNN (nn : Word) (s : State) : Result :=
  let (v, s) := memRead16 nn s
  done 20 (setIX v s)

/-- `LD IY,(nn)` (41_load16.md R236). -/
def execLdIYAtNN (nn : Word) (s : State) : Result :=
  let (v, s) := memRead16 nn s
  done 20 (setIY v s)

/-- `LD (nn),HL` (41_load16.md R237): `L` to `nn`, then `H` to `nn + 1`. -/
def execLdAtNNHL (nn : Word) (s : State) : Result := done 16 (memWrite16 nn (hl s) s)

/-- `LD (nn),dd` (41_load16.md R238). -/
def execLdAtNNDD (nn : Word) (dd : Reg16) (s : State) : Result := done 20 (memWrite16 nn (r16 s dd) s)

/-- `LD (nn),IX` (41_load16.md R239). -/
def execLdAtNNIX (nn : Word) (s : State) : Result := done 20 (memWrite16 nn s.cpu.ix s)

/-- `LD (nn),IY` (41_load16.md R240). -/
def execLdAtNNIY (nn : Word) (s : State) : Result := done 20 (memWrite16 nn s.cpu.iy s)

/-- `LD SP,HL` (41_load16.md R241). -/
def execLdSPHL (s : State) : Result := done 6 (setSP (hl s) s)

/-- `LD SP,IX` (41_load16.md R242). -/
def execLdSPIX (s : State) : Result := done 10 (setSP s.cpu.ix s)

/-- `LD SP,IY` (41_load16.md R243). -/
def execLdSPIY (s : State) : Result := done 10 (setSP s.cpu.iy s)

/-- `PUSH qq` (41_load16.md R244). -/
def execPushQQ (qq : Reg16AF) (s : State) : Result := done 11 (pushWord (r16AF s qq) s)

/-- `PUSH IX` (41_load16.md R245). -/
def execPushIX (s : State) : Result := done 15 (pushWord s.cpu.ix s)

/-- `PUSH IY` (41_load16.md R246). -/
def execPushIY (s : State) : Result := done 15 (pushWord s.cpu.iy s)

/-- `POP qq` (41_load16.md R247): `POP AF` writes all 8 bits of `F`. -/
def execPopQQ (qq : Reg16AF) (s : State) : Result :=
  let (v, s) := popWord s
  done 10 (setR16AF qq v s)

/-- `POP IX` (41_load16.md R248). -/
def execPopIX (s : State) : Result :=
  let (v, s) := popWord s
  done 14 (setIX v s)

/-- `POP IY` (41_load16.md R249). -/
def execPopIY (s : State) : Result :=
  let (v, s) := popWord s
  done 14 (setIY v s)

end Sys2Proof.Machine
end

