-- ==== Sys2Proof/Machine/Load8.lean ====
section
/-! DEFINITION. The 8-bit loads (40_load8.md R200 to R220). -/

namespace Sys2Proof.Machine

/-- `LD r,r'` (40_load8.md R200). -/
def execLdRR (dst src : Reg8) (s : State) : Result := done 4 (setR8 dst (r8 s src) s)

/-- `LD r,n` (40_load8.md R201). -/
def execLdRN (dst : Reg8) (n : Byte) (s : State) : Result := done 7 (setR8 dst n s)

/-- `LD r,(HL)` (40_load8.md R202). -/
def execLdRAtHL (dst : Reg8) (s : State) : Result :=
  let (v, s) := read8 (hl s) s
  done 7 (setR8 dst v s)

/-- `LD r,(IX+d)` (40_load8.md R203). -/
def execLdRAtIX (dst : Reg8) (disp : Byte) (s : State) : Result :=
  let (v, s) := read8 (eaIX s disp) s
  done 19 (setR8 dst v s)

/-- `LD r,(IY+d)` (40_load8.md R204). -/
def execLdRAtIY (dst : Reg8) (disp : Byte) (s : State) : Result :=
  let (v, s) := read8 (eaIY s disp) s
  done 19 (setR8 dst v s)

/-- `LD (HL),r` (40_load8.md R205). -/
def execLdAtHLR (src : Reg8) (s : State) : Result := done 7 (write8 (hl s) (r8 s src) s)

/-- `LD (IX+d),r` (40_load8.md R206). -/
def execLdAtIXR (disp : Byte) (src : Reg8) (s : State) : Result := done 19 (write8 (eaIX s disp) (r8 s src) s)

/-- `LD (IY+d),r` (40_load8.md R207). -/
def execLdAtIYR (disp : Byte) (src : Reg8) (s : State) : Result := done 19 (write8 (eaIY s disp) (r8 s src) s)

/-- `LD (HL),n` (40_load8.md R208). -/
def execLdAtHLN (n : Byte) (s : State) : Result := done 10 (write8 (hl s) n s)

/-- `LD (IX+d),n` (40_load8.md R209). -/
def execLdAtIXN (disp n : Byte) (s : State) : Result := done 19 (write8 (eaIX s disp) n s)

/-- `LD (IY+d),n` (40_load8.md R210). -/
def execLdAtIYN (disp n : Byte) (s : State) : Result := done 19 (write8 (eaIY s disp) n s)

/-- `LD A,(BC)` (40_load8.md R211). -/
def execLdAAtBC (s : State) : Result :=
  let (v, s) := read8 (bc s) s
  done 7 (setA v s)

/-- `LD A,(DE)` (40_load8.md R212). -/
def execLdAAtDE (s : State) : Result :=
  let (v, s) := read8 (de s) s
  done 7 (setA v s)

/-- `LD A,(nn)` (40_load8.md R213). -/
def execLdAAtNN (nn : Word) (s : State) : Result :=
  let (v, s) := read8 nn s
  done 13 (setA v s)

/-- `LD (BC),A` (40_load8.md R214). -/
def execLdAtBCA (s : State) : Result := done 7 (write8 (bc s) s.cpu.a s)

/-- `LD (DE),A` (40_load8.md R215). -/
def execLdAtDEA (s : State) : Result := done 7 (write8 (de s) s.cpu.a s)

/-- `LD (nn),A` (40_load8.md R216). -/
def execLdAtNNA (nn : Word) (s : State) : Result := done 13 (write8 nn s.cpu.a s)

/-- `LD A,I` (40_load8.md R217): `PV` receives `IFF2`. -/
def execLdAI (s : State) : Result := done 9 (setFlags (byteFlags s.cpu.i s.cpu.iff2) (setA s.cpu.i s))

/-- `LD A,R` (40_load8.md R218): `R` already holds both increments of this instruction. -/
def execLdARefresh (s : State) : Result := done 9 (setFlags (byteFlags s.cpu.r s.cpu.iff2) (setA s.cpu.r s))

/-- `LD I,A` (40_load8.md R219). -/
def execLdIA (s : State) : Result := done 9 { s with cpu := { s.cpu with i := s.cpu.a } }

/-- `LD R,A` (40_load8.md R220): all 8 bits of `R`. -/
def execLdRefreshA (s : State) : Result := done 9 { s with cpu := { s.cpu with r := s.cpu.a } }

end Sys2Proof.Machine
end

