-- ==== Sys2Proof/Machine/RotateShift.lean ====
section
/-! DEFINITION. Rotates and shifts (46_rotate_shift.md R382 to R415). -/

namespace Sys2Proof.Machine

/-- `RLCA` (46_rotate_shift.md R382). -/
def execRlca (s : State) : Result := done 4 (rotateA rlc8 s)

/-- `RLA` (46_rotate_shift.md R383). -/
def execRla (s : State) : Result := done 4 (rotateA (rl8 s.cpu.f.c) s)

/-- `RRCA` (46_rotate_shift.md R384). -/
def execRrca (s : State) : Result := done 4 (rotateA rrc8 s)

/-- `RRA` (46_rotate_shift.md R385). -/
def execRra (s : State) : Result := done 4 (rotateA (rr8 s.cpu.f.c) s)

/-- `RLC r` (46_rotate_shift.md R386). -/
def execRlcR (dst : Reg8) (s : State) : Result := done 8 (modifyReg dst (shiftOp rlc8) s)

/-- `RLC (HL)` (46_rotate_shift.md R387). -/
def execRlcAtHL (s : State) : Result := done 15 (modifyAt (hl s) (shiftOp rlc8) s)

/-- `RLC (IX+d)` (46_rotate_shift.md R388). -/
def execRlcAtIX (disp : Byte) (s : State) : Result := done 23 (modifyAt (eaIX s disp) (shiftOp rlc8) s)

/-- `RLC (IY+d)` (46_rotate_shift.md R389). -/
def execRlcAtIY (disp : Byte) (s : State) : Result := done 23 (modifyAt (eaIY s disp) (shiftOp rlc8) s)

/-- `RL r` (46_rotate_shift.md R390). -/
def execRlR (dst : Reg8) (s : State) : Result := done 8 (modifyReg dst (shiftOp (rl8 s.cpu.f.c)) s)

/-- `RL (HL)` (46_rotate_shift.md R391). -/
def execRlAtHL (s : State) : Result := done 15 (modifyAt (hl s) (shiftOp (rl8 s.cpu.f.c)) s)

/-- `RL (IX+d)` (46_rotate_shift.md R392). -/
def execRlAtIX (disp : Byte) (s : State) : Result := done 23 (modifyAt (eaIX s disp) (shiftOp (rl8 s.cpu.f.c)) s)

/-- `RL (IY+d)` (46_rotate_shift.md R393). -/
def execRlAtIY (disp : Byte) (s : State) : Result := done 23 (modifyAt (eaIY s disp) (shiftOp (rl8 s.cpu.f.c)) s)

/-- `RRC r` (46_rotate_shift.md R394). -/
def execRrcR (dst : Reg8) (s : State) : Result := done 8 (modifyReg dst (shiftOp rrc8) s)

/-- `RRC (HL)` (46_rotate_shift.md R395). -/
def execRrcAtHL (s : State) : Result := done 15 (modifyAt (hl s) (shiftOp rrc8) s)

/-- `RRC (IX+d)` (46_rotate_shift.md R396). -/
def execRrcAtIX (disp : Byte) (s : State) : Result := done 23 (modifyAt (eaIX s disp) (shiftOp rrc8) s)

/-- `RRC (IY+d)` (46_rotate_shift.md R397). -/
def execRrcAtIY (disp : Byte) (s : State) : Result := done 23 (modifyAt (eaIY s disp) (shiftOp rrc8) s)

/-- `RR r` (46_rotate_shift.md R398). -/
def execRrR (dst : Reg8) (s : State) : Result := done 8 (modifyReg dst (shiftOp (rr8 s.cpu.f.c)) s)

/-- `RR (HL)` (46_rotate_shift.md R399). -/
def execRrAtHL (s : State) : Result := done 15 (modifyAt (hl s) (shiftOp (rr8 s.cpu.f.c)) s)

/-- `RR (IX+d)` (46_rotate_shift.md R400). -/
def execRrAtIX (disp : Byte) (s : State) : Result := done 23 (modifyAt (eaIX s disp) (shiftOp (rr8 s.cpu.f.c)) s)

/-- `RR (IY+d)` (46_rotate_shift.md R401). -/
def execRrAtIY (disp : Byte) (s : State) : Result := done 23 (modifyAt (eaIY s disp) (shiftOp (rr8 s.cpu.f.c)) s)

/-- `SLA r` (46_rotate_shift.md R402). -/
def execSlaR (dst : Reg8) (s : State) : Result := done 8 (modifyReg dst (shiftOp sla8) s)

/-- `SLA (HL)` (46_rotate_shift.md R403). -/
def execSlaAtHL (s : State) : Result := done 15 (modifyAt (hl s) (shiftOp sla8) s)

/-- `SLA (IX+d)` (46_rotate_shift.md R404). -/
def execSlaAtIX (disp : Byte) (s : State) : Result := done 23 (modifyAt (eaIX s disp) (shiftOp sla8) s)

/-- `SLA (IY+d)` (46_rotate_shift.md R405). -/
def execSlaAtIY (disp : Byte) (s : State) : Result := done 23 (modifyAt (eaIY s disp) (shiftOp sla8) s)

/-- `SRA r` (46_rotate_shift.md R406). -/
def execSraR (dst : Reg8) (s : State) : Result := done 8 (modifyReg dst (shiftOp sra8) s)

/-- `SRA (HL)` (46_rotate_shift.md R407). -/
def execSraAtHL (s : State) : Result := done 15 (modifyAt (hl s) (shiftOp sra8) s)

/-- `SRA (IX+d)` (46_rotate_shift.md R408). -/
def execSraAtIX (disp : Byte) (s : State) : Result := done 23 (modifyAt (eaIX s disp) (shiftOp sra8) s)

/-- `SRA (IY+d)` (46_rotate_shift.md R409). -/
def execSraAtIY (disp : Byte) (s : State) : Result := done 23 (modifyAt (eaIY s disp) (shiftOp sra8) s)

/-- `SRL r` (46_rotate_shift.md R410). -/
def execSrlR (dst : Reg8) (s : State) : Result := done 8 (modifyReg dst (shiftOp srl8) s)

/-- `SRL (HL)` (46_rotate_shift.md R411). -/
def execSrlAtHL (s : State) : Result := done 15 (modifyAt (hl s) (shiftOp srl8) s)

/-- `SRL (IX+d)` (46_rotate_shift.md R412). -/
def execSrlAtIX (disp : Byte) (s : State) : Result := done 23 (modifyAt (eaIX s disp) (shiftOp srl8) s)

/-- `SRL (IY+d)` (46_rotate_shift.md R413). -/
def execSrlAtIY (disp : Byte) (s : State) : Result := done 23 (modifyAt (eaIY s disp) (shiftOp srl8) s)

/-- The nibbles `hi[3:0] : lo[3:0]` as one byte. -/
def nibbles (hi lo : Byte) : Byte := hi.extractLsb' 0 4 ++ lo.extractLsb' 0 4

/-- `RLD` (46_rotate_shift.md R414). -/
def execRld (s : State) : Result :=
  let (v, s) := read8 (hl s) s
  let a := s.cpu.a
  let s := write8 (hl s) (nibbles v a) s
  let a' := nibbles (a >>> 4) (v >>> 4)
  done 18 (setFlags (byteFlags a' (parity8 a')) (setA a' s))

/-- `RRD` (46_rotate_shift.md R415). -/
def execRrd (s : State) : Result :=
  let (v, s) := read8 (hl s) s
  let a := s.cpu.a
  let s := write8 (hl s) (nibbles a (v >>> 4)) s
  let a' := nibbles (a >>> 4) v
  done 18 (setFlags (byteFlags a' (parity8 a')) (setA a' s))

end Sys2Proof.Machine
end

