-- ==== Sys2Proof/Machine/Dispatch.lean ====
section
/-! DEFINITION. One arm per instruction form: the direct call of its meaning. -/

namespace Sys2Proof.Machine

/-- The meaning of an instruction, on the state its fetch left (30_encoding.md R152, R156). -/
def exec (i : Instr) (s : State) : Host.Outcome State Fault Refusal :=
  match i with
  -- 40_load8.md
  | .ldRR dst src => Sys2Proof.Machine.execLdRR dst src s
  | .ldRN dst n => Sys2Proof.Machine.execLdRN dst n s
  | .ldRAtHL dst => Sys2Proof.Machine.execLdRAtHL dst s
  | .ldRAtIX dst disp => Sys2Proof.Machine.execLdRAtIX dst disp s
  | .ldRAtIY dst disp => Sys2Proof.Machine.execLdRAtIY dst disp s
  | .ldAtHLR src => Sys2Proof.Machine.execLdAtHLR src s
  | .ldAtIXR disp src => Sys2Proof.Machine.execLdAtIXR disp src s
  | .ldAtIYR disp src => Sys2Proof.Machine.execLdAtIYR disp src s
  | .ldAtHLN n => Sys2Proof.Machine.execLdAtHLN n s
  | .ldAtIXN disp n => Sys2Proof.Machine.execLdAtIXN disp n s
  | .ldAtIYN disp n => Sys2Proof.Machine.execLdAtIYN disp n s
  | .ldAAtBC => Sys2Proof.Machine.execLdAAtBC s
  | .ldAAtDE => Sys2Proof.Machine.execLdAAtDE s
  | .ldAAtNN nn => Sys2Proof.Machine.execLdAAtNN nn s
  | .ldAtBCA => Sys2Proof.Machine.execLdAtBCA s
  | .ldAtDEA => Sys2Proof.Machine.execLdAtDEA s
  | .ldAtNNA nn => Sys2Proof.Machine.execLdAtNNA nn s
  | .ldAI => Sys2Proof.Machine.execLdAI s
  | .ldARefresh => Sys2Proof.Machine.execLdARefresh s
  | .ldIA => Sys2Proof.Machine.execLdIA s
  | .ldRefreshA => Sys2Proof.Machine.execLdRefreshA s
  -- 41_load16.md
  | .ldDDNN dd nn => Sys2Proof.Machine.execLdDDNN dd nn s
  | .ldIXNN nn => Sys2Proof.Machine.execLdIXNN nn s
  | .ldIYNN nn => Sys2Proof.Machine.execLdIYNN nn s
  | .ldHLAtNN nn => Sys2Proof.Machine.execLdHLAtNN nn s
  | .ldDDAtNN dd nn => Sys2Proof.Machine.execLdDDAtNN dd nn s
  | .ldIXAtNN nn => Sys2Proof.Machine.execLdIXAtNN nn s
  | .ldIYAtNN nn => Sys2Proof.Machine.execLdIYAtNN nn s
  | .ldAtNNHL nn => Sys2Proof.Machine.execLdAtNNHL nn s
  | .ldAtNNDD nn dd => Sys2Proof.Machine.execLdAtNNDD nn dd s
  | .ldAtNNIX nn => Sys2Proof.Machine.execLdAtNNIX nn s
  | .ldAtNNIY nn => Sys2Proof.Machine.execLdAtNNIY nn s
  | .ldSPHL => Sys2Proof.Machine.execLdSPHL s
  | .ldSPIX => Sys2Proof.Machine.execLdSPIX s
  | .ldSPIY => Sys2Proof.Machine.execLdSPIY s
  | .pushQQ qq => Sys2Proof.Machine.execPushQQ qq s
  | .pushIX => Sys2Proof.Machine.execPushIX s
  | .pushIY => Sys2Proof.Machine.execPushIY s
  | .popQQ qq => Sys2Proof.Machine.execPopQQ qq s
  | .popIX => Sys2Proof.Machine.execPopIX s
  | .popIY => Sys2Proof.Machine.execPopIY s
  -- 42_exchange_block.md
  | .exDEHL => Sys2Proof.Machine.execExDEHL s
  | .exAFAF => Sys2Proof.Machine.execExAFAF s
  | .exx => Sys2Proof.Machine.execExx s
  | .exAtSPHL => Sys2Proof.Machine.execExAtSPHL s
  | .exAtSPIX => Sys2Proof.Machine.execExAtSPIX s
  | .exAtSPIY => Sys2Proof.Machine.execExAtSPIY s
  | .ldi => Sys2Proof.Machine.execLdi s
  | .ldir => Sys2Proof.Machine.execLdir s
  | .ldd => Sys2Proof.Machine.execLdd s
  | .lddr => Sys2Proof.Machine.execLddr s
  | .cpi => Sys2Proof.Machine.execCpi s
  | .cpir => Sys2Proof.Machine.execCpir s
  | .cpd => Sys2Proof.Machine.execCpd s
  | .cpdr => Sys2Proof.Machine.execCpdr s
  -- 43_arith8.md
  | .addAR src => Sys2Proof.Machine.execAddAR src s
  | .addAN n => Sys2Proof.Machine.execAddAN n s
  | .addAAtHL => Sys2Proof.Machine.execAddAAtHL s
  | .addAAtIX disp => Sys2Proof.Machine.execAddAAtIX disp s
  | .addAAtIY disp => Sys2Proof.Machine.execAddAAtIY disp s
  | .adcAR src => Sys2Proof.Machine.execAdcAR src s
  | .adcAN n => Sys2Proof.Machine.execAdcAN n s
  | .adcAAtHL => Sys2Proof.Machine.execAdcAAtHL s
  | .adcAAtIX disp => Sys2Proof.Machine.execAdcAAtIX disp s
  | .adcAAtIY disp => Sys2Proof.Machine.execAdcAAtIY disp s
  | .subR src => Sys2Proof.Machine.execSubR src s
  | .subN n => Sys2Proof.Machine.execSubN n s
  | .subAtHL => Sys2Proof.Machine.execSubAtHL s
  | .subAtIX disp => Sys2Proof.Machine.execSubAtIX disp s
  | .subAtIY disp => Sys2Proof.Machine.execSubAtIY disp s
  | .sbcAR src => Sys2Proof.Machine.execSbcAR src s
  | .sbcAN n => Sys2Proof.Machine.execSbcAN n s
  | .sbcAAtHL => Sys2Proof.Machine.execSbcAAtHL s
  | .sbcAAtIX disp => Sys2Proof.Machine.execSbcAAtIX disp s
  | .sbcAAtIY disp => Sys2Proof.Machine.execSbcAAtIY disp s
  | .andR src => Sys2Proof.Machine.execAndR src s
  | .andN n => Sys2Proof.Machine.execAndN n s
  | .andAtHL => Sys2Proof.Machine.execAndAtHL s
  | .andAtIX disp => Sys2Proof.Machine.execAndAtIX disp s
  | .andAtIY disp => Sys2Proof.Machine.execAndAtIY disp s
  | .orR src => Sys2Proof.Machine.execOrR src s
  | .orN n => Sys2Proof.Machine.execOrN n s
  | .orAtHL => Sys2Proof.Machine.execOrAtHL s
  | .orAtIX disp => Sys2Proof.Machine.execOrAtIX disp s
  | .orAtIY disp => Sys2Proof.Machine.execOrAtIY disp s
  | .xorR src => Sys2Proof.Machine.execXorR src s
  | .xorN n => Sys2Proof.Machine.execXorN n s
  | .xorAtHL => Sys2Proof.Machine.execXorAtHL s
  | .xorAtIX disp => Sys2Proof.Machine.execXorAtIX disp s
  | .xorAtIY disp => Sys2Proof.Machine.execXorAtIY disp s
  | .cpR src => Sys2Proof.Machine.execCpR src s
  | .cpN n => Sys2Proof.Machine.execCpN n s
  | .cpAtHL => Sys2Proof.Machine.execCpAtHL s
  | .cpAtIX disp => Sys2Proof.Machine.execCpAtIX disp s
  | .cpAtIY disp => Sys2Proof.Machine.execCpAtIY disp s
  | .incR dst => Sys2Proof.Machine.execIncR dst s
  | .incAtHL => Sys2Proof.Machine.execIncAtHL s
  | .incAtIX disp => Sys2Proof.Machine.execIncAtIX disp s
  | .incAtIY disp => Sys2Proof.Machine.execIncAtIY disp s
  | .decR dst => Sys2Proof.Machine.execDecR dst s
  | .decAtHL => Sys2Proof.Machine.execDecAtHL s
  | .decAtIX disp => Sys2Proof.Machine.execDecAtIX disp s
  | .decAtIY disp => Sys2Proof.Machine.execDecAtIY disp s
  -- 44_general_cpu.md
  | .daa => Sys2Proof.Machine.execDaa s
  | .cpl => Sys2Proof.Machine.execCpl s
  | .neg => Sys2Proof.Machine.execNeg s
  | .ccf => Sys2Proof.Machine.execCcf s
  | .scf => Sys2Proof.Machine.execScf s
  | .nop => Sys2Proof.Machine.execNop s
  | .halt => Sys2Proof.Machine.execHalt s
  | .di => Sys2Proof.Machine.execDi s
  | .ei => Sys2Proof.Machine.execEi s
  | .im0 => Sys2Proof.Machine.execIm0 s
  | .im1 => Sys2Proof.Machine.execIm1 s
  | .im2 => Sys2Proof.Machine.execIm2 s
  -- 45_arith16.md
  | .addHLSS ss => Sys2Proof.Machine.execAddHLSS ss s
  | .adcHLSS ss => Sys2Proof.Machine.execAdcHLSS ss s
  | .sbcHLSS ss => Sys2Proof.Machine.execSbcHLSS ss s
  | .addIXPP pp => Sys2Proof.Machine.execAddIXPP pp s
  | .addIYRR rr => Sys2Proof.Machine.execAddIYRR rr s
  | .incSS ss => Sys2Proof.Machine.execIncSS ss s
  | .incIX => Sys2Proof.Machine.execIncIX s
  | .incIY => Sys2Proof.Machine.execIncIY s
  | .decSS ss => Sys2Proof.Machine.execDecSS ss s
  | .decIX => Sys2Proof.Machine.execDecIX s
  | .decIY => Sys2Proof.Machine.execDecIY s
  -- 46_rotate_shift.md
  | .rlca => Sys2Proof.Machine.execRlca s
  | .rla => Sys2Proof.Machine.execRla s
  | .rrca => Sys2Proof.Machine.execRrca s
  | .rra => Sys2Proof.Machine.execRra s
  | .rlcR dst => Sys2Proof.Machine.execRlcR dst s
  | .rlcAtHL => Sys2Proof.Machine.execRlcAtHL s
  | .rlcAtIX disp => Sys2Proof.Machine.execRlcAtIX disp s
  | .rlcAtIY disp => Sys2Proof.Machine.execRlcAtIY disp s
  | .rlR dst => Sys2Proof.Machine.execRlR dst s
  | .rlAtHL => Sys2Proof.Machine.execRlAtHL s
  | .rlAtIX disp => Sys2Proof.Machine.execRlAtIX disp s
  | .rlAtIY disp => Sys2Proof.Machine.execRlAtIY disp s
  | .rrcR dst => Sys2Proof.Machine.execRrcR dst s
  | .rrcAtHL => Sys2Proof.Machine.execRrcAtHL s
  | .rrcAtIX disp => Sys2Proof.Machine.execRrcAtIX disp s
  | .rrcAtIY disp => Sys2Proof.Machine.execRrcAtIY disp s
  | .rrR dst => Sys2Proof.Machine.execRrR dst s
  | .rrAtHL => Sys2Proof.Machine.execRrAtHL s
  | .rrAtIX disp => Sys2Proof.Machine.execRrAtIX disp s
  | .rrAtIY disp => Sys2Proof.Machine.execRrAtIY disp s
  | .slaR dst => Sys2Proof.Machine.execSlaR dst s
  | .slaAtHL => Sys2Proof.Machine.execSlaAtHL s
  | .slaAtIX disp => Sys2Proof.Machine.execSlaAtIX disp s
  | .slaAtIY disp => Sys2Proof.Machine.execSlaAtIY disp s
  | .sraR dst => Sys2Proof.Machine.execSraR dst s
  | .sraAtHL => Sys2Proof.Machine.execSraAtHL s
  | .sraAtIX disp => Sys2Proof.Machine.execSraAtIX disp s
  | .sraAtIY disp => Sys2Proof.Machine.execSraAtIY disp s
  | .srlR dst => Sys2Proof.Machine.execSrlR dst s
  | .srlAtHL => Sys2Proof.Machine.execSrlAtHL s
  | .srlAtIX disp => Sys2Proof.Machine.execSrlAtIX disp s
  | .srlAtIY disp => Sys2Proof.Machine.execSrlAtIY disp s
  | .rld => Sys2Proof.Machine.execRld s
  | .rrd => Sys2Proof.Machine.execRrd s
  -- 47_bit.md
  | .bitBR bit src => Sys2Proof.Machine.execBitBR bit src s
  | .bitBAtHL bit => Sys2Proof.Machine.execBitBAtHL bit s
  | .bitBAtIX bit disp => Sys2Proof.Machine.execBitBAtIX bit disp s
  | .bitBAtIY bit disp => Sys2Proof.Machine.execBitBAtIY bit disp s
  | .setBR bit dst => Sys2Proof.Machine.execSetBR bit dst s
  | .setBAtHL bit => Sys2Proof.Machine.execSetBAtHL bit s
  | .setBAtIX bit disp => Sys2Proof.Machine.execSetBAtIX bit disp s
  | .setBAtIY bit disp => Sys2Proof.Machine.execSetBAtIY bit disp s
  | .resBR bit dst => Sys2Proof.Machine.execResBR bit dst s
  | .resBAtHL bit => Sys2Proof.Machine.execResBAtHL bit s
  | .resBAtIX bit disp => Sys2Proof.Machine.execResBAtIX bit disp s
  | .resBAtIY bit disp => Sys2Proof.Machine.execResBAtIY bit disp s
  -- 48_jump_call.md
  | .jpNN nn => Sys2Proof.Machine.execJpNN nn s
  | .jpCCNN cc nn => Sys2Proof.Machine.execJpCCNN cc nn s
  | .jr e => Sys2Proof.Machine.execJr e s
  | .jrC e => Sys2Proof.Machine.execJrC e s
  | .jrNC e => Sys2Proof.Machine.execJrNC e s
  | .jrZ e => Sys2Proof.Machine.execJrZ e s
  | .jrNZ e => Sys2Proof.Machine.execJrNZ e s
  | .jpHL => Sys2Proof.Machine.execJpHL s
  | .jpIX => Sys2Proof.Machine.execJpIX s
  | .jpIY => Sys2Proof.Machine.execJpIY s
  | .djnz e => Sys2Proof.Machine.execDjnz e s
  | .callNN nn => Sys2Proof.Machine.execCallNN nn s
  | .callCCNN cc nn => Sys2Proof.Machine.execCallCCNN cc nn s
  | .ret => Sys2Proof.Machine.execRet s
  | .retCC cc => Sys2Proof.Machine.execRetCC cc s
  | .reti => Sys2Proof.Machine.execReti s
  | .retn => Sys2Proof.Machine.execRetn s
  | .rst target => Sys2Proof.Machine.execRst target s
  -- 49_io.md
  | .inAN n => Sys2Proof.Machine.execInAN n s
  | .inRC dst => Sys2Proof.Machine.execInRC dst s
  | .ini => Sys2Proof.Machine.execIni s
  | .inir => Sys2Proof.Machine.execInir s
  | .ind => Sys2Proof.Machine.execInd s
  | .indr => Sys2Proof.Machine.execIndr s
  | .outNA n => Sys2Proof.Machine.execOutNA n s
  | .outCR src => Sys2Proof.Machine.execOutCR src s
  | .outi => Sys2Proof.Machine.execOuti s
  | .otir => Sys2Proof.Machine.execOtir s
  | .outd => Sys2Proof.Machine.execOutd s
  | .otdr => Sys2Proof.Machine.execOtdr s

end Sys2Proof.Machine
end

