-- ==== Sys2Proof/Machine/Ula.lean ====
section
/-! DEFINITION. The ULA agent (60_exceptions.md R545 to R554): the fetch interception and the step that follows each
CPU step. -/

namespace Sys2Proof.Machine

/-! ### The bus-replay fetch interception (30_encoding.md R151, 60_exceptions.md R553) -/

/-- `COLOR_BYTE` of platform `id` (60_exceptions.md R553), uninterpreted: `pc0`, the byte, the machine state when
the character is shown (log 17). -/
opaque platformColorByte : Nat → Word → Byte → State → Byte

/-- `COLOR_BYTE(pc0, b, machine state)`. -/
def colorByte (pc0 : Word) (b : Byte) (s : State) : Byte :=
  match s.cfg.colorSource with
  | .fixed v => v
  | .platform id => platformColorByte id pc0 b s

/-- The fetched byte is shown to the ULA: the bus-replay variant, in the upper half (30_encoding.md R151). -/
def intercepts (s : State) (pc0 : Word) : Bool := s.cfg.ulaVariant == .busReplay && decide (0x8000#16 ≤ pc0)

/-- The glyph row of character byte `b` in the current mapping, inverted when the byte says so
(60_exceptions.md R553). -/
def glyphByte (b : Byte) (s : State) : Byte :=
  let g := peek s (s.cfg.charGenOf s.cpu.i s.cpu.ix s.cpu.iy b s.ula.line)
  if s.cfg.charInvert.contains b then g ^^^ 0xFF#8 else g

/-- The character byte `b` fetched at `pc0` is added to the line records (60_exceptions.md R553). -/
def showCharacter (pc0 : Word) (b : Byte) (s : State) : State :=
  { s with ula := { s.ula with
      scanRec := s.ula.scanRec ++ [glyphByte b s]
      colorRec := if s.cfg.colorMode then s.ula.colorRec ++ [colorByte pc0 b s] else s.ula.colorRec } }

/-- `UlaFetchIntercept(pc0, b)` (60_exceptions.md R553): the byte the decoder receives. The character is shown at once,
or kept for the ULA's own step (20_memory.md R120), as the configuration says (DESIGN CHOICE, log 33). -/
def ulaIntercept (pc0 : Word) (b : Byte) (s : State) : Byte × State :=
  if s.cfg.charData.contains b then
    (0x00#8,
      match s.cfg.charRead with
      | .atFetch => showCharacter pc0 b s
      | .inUlaStep => { s with ula := { s.ula with pendingChar := some (pc0, b) } })
  else (b, s)

/-- Show the character that the fetch of this machine step kept (20_memory.md R120; log 33). -/
def showPending (s : State) : State :=
  match s.ula.pendingChar with
  | none => s
  | some (pc0, b) => showCharacter pc0 b { s with ula := { s.ula with pendingChar := none } }

/-! ### UlaStep (60_exceptions.md R547 to R550, R554) -/

/-- `EndOfLine()` (60_exceptions.md R554). -/
def endOfLine (s : State) : State :=
  match s.cfg.ulaVariant with
  | .busReplay =>
    { s with ula := { s.ula with
        work := s.ula.work ++ [s.ula.scanRec]
        colorWork := s.ula.colorWork ++ [s.ula.colorRec]
        scanRec := []
        colorRec := [] } }
  | .none | .bufferReplay => s

/-- `HsyncActions()` (60_exceptions.md R548): the T-states it adds. -/
def hsyncActions (s : State) : Nat × State :=
  if s.ula.nmiOn then
    let wait := if s.cpu.halted then s.cfg.waitExtOf (s.ula.t - s.ula.hsyncEdgeT) else 0
    let (x, s) := generateInterrupt true 0x00#8 s
    (wait + x, s)
  else (0, s)

/-- One turn of the loop of `UlaStep`: a horizontal-sync rising edge (60_exceptions.md R547). -/
def hsyncEdge (s : State) : Nat × State :=
  let lineT := s.ula.lineT - s.cfg.tScanline
  let s := { s with ula := { s.ula with
    lineT := lineT, hsyncEdgeT := s.ula.t - lineT, line := s.ula.line + 1 } }
  hsyncActions (endOfLine s)

/-- `n` turns of the loop: the T-states they add and the state after them. -/
def hsyncEdges : Nat → State → Nat × State
  | 0, s => (0, s)
  | n + 1, s =>
    let (x, s) := hsyncEdge s
    let (y, s) := hsyncEdges n s
    (x + y, s)

/-- `FrameComplete()` (60_exceptions.md R550). -/
def frameComplete (s : State) : State :=
  match s.cfg.ulaVariant with
  | .bufferReplay =>
    { s with
      ula := { s.ula with
        frame := some (.bytes (readBlock s s.cfg.displayBase s.cfg.displayLen)), frameT := s.ula.t }
      notices := s.notices ++ [.frameReady] }
  | .busReplay =>
    { s with
      ula := { s.ula with
        frame := some (.lines s.ula.work s.ula.colorWork), frameT := s.ula.t
        work := [], colorWork := [], scanRec := [], colorRec := [] }
      notices := s.notices ++ [.frameReady] }
  | .none => s

/-- `VsyncTrack()` (60_exceptions.md R549). -/
def vsyncTrack (s : State) : State :=
  if s.ula.syncReq && !s.ula.vsync then
    { s with ula := { s.ula with vsync := true, vsyncStartT := s.ula.t } }
  else if !s.ula.syncReq && s.ula.vsync then
    let s := { s with ula := { s.ula with vsync := false, vsyncEndT := s.ula.t, line := 0 } }
    if s.ula.vsyncStartT + s.cfg.tVsyncMin ≤ s.ula.vsyncEndT then frameComplete s else s
  else s

/-- What `UlaStep(t)` does where there is a ULA (60_exceptions.md R547): the T-states it adds. The loop runs once for
each scanline period that `line_t` has completed (log 23). -/
def advanceUla (t : Nat) (s : State) : Nat × State :=
  let s := { s with ula := { s.ula with t := s.ula.t + t, lineT := s.ula.lineT + t } }
  let (extra, s) := hsyncEdges (s.ula.lineT / s.cfg.tScanline) s
  let s := vsyncTrack s
  (extra, { s with ula := { s.ula with t := s.ula.t + extra, lineT := s.ula.lineT + extra } })

/-- `UlaStep(t)` (60_exceptions.md R547). -/
def ulaStep (t : Nat) (s : State) : Nat × State :=
  match s.cfg.ulaVariant with
  | .none => (0, s)
  | .bufferReplay => advanceUla t s
  | .busReplay => advanceUla t (showPending s)

/-- What `getFrame` answers: a frame, or none for "no signal" (60_exceptions.md R551). -/
def getFrame (s : State) : Option Frame :=
  if s.ula.t - s.ula.frameT > 2 * s.cfg.tVrefresh then none else s.ula.frame

end Sys2Proof.Machine
end

