-- ==== Sys2Proof/Machine/Fetch.lean ====
section
/-! DEFINITION. Fetching the bytes of an instruction (30_encoding.md R150, R151, R156). -/

namespace Sys2Proof.Machine

/-- `Fetch(0)`: a bus read that marks `pc0` as executed; the one fetch the bus-replay ULA may intercept
(30_encoding.md R150, R151). -/
def fetchFirst (s : State) : Byte × State :=
  let pc0 := s.cpu.pc
  let (b, s) := read8 pc0 s
  let s := { s with activity := markExecuted pc0 s.activity }
  if intercepts s pc0 then ulaIntercept pc0 b s else (b, s)

/-- `n` further bytes from `a` on, in ascending order (30_encoding.md R150). -/
def fetchBytes : Word → Nat → State → List Byte × State
  | _, 0, s => ([], s)
  | a, n + 1, s =>
    let (b, s) := read8 a s
    let (bs, s) := fetchBytes (a + 1#16) n s
    (b :: bs, s)

/-- The rest of an instruction whose byte 1 is an opcode of the main table. -/
def fetchMain (pc0 : Word) (b1 : Byte) (s : State) : List Byte × State :=
  let (rest, s) := fetchBytes (pc0 + 1#16) (operandCount mainRows b1) s
  (b1 :: rest, s)

/-- The rest of an instruction whose byte 1 is a lead byte: the second M1 fetch with its `IncR`, then the others. -/
def fetchPrefixed (pc0 : Word) (b1 : Byte) (s : State) : List Byte × State :=
  let (b2, s) := read8 (pc0 + 1#16) s
  let (rest, s) := fetchBytes (pc0 + 2#16) (instrLength b1 b2 - 2) (incR s)
  (b1 :: b2 :: rest, s)

/-- All bytes of the instruction at `PC`, with an `IncR` after each M1 fetch (30_encoding.md R156, 10_state.md R43).
For an unknown encoding: the bytes fetched before it is refused. -/
def fetchInstr (s : State) : List Byte × State :=
  let pc0 := s.cpu.pc
  let (b1, s) := fetchFirst s
  match Page.of b1 with
  | .main => fetchMain pc0 b1 (incR s)
  | .cb | .dd | .ed | .fd => fetchPrefixed pc0 b1 (incR s)

end Sys2Proof.Machine
end

