-- ==== Sys2Proof/Machine/Execute.lean ====
section
/-! DEFINITION. `ExecuteOne` (60_exceptions.md R530 to R534) and the machine step (R540). -/

namespace Sys2Proof.Machine

/-- The state in which an instruction's operation runs: deferred request consumed, `halted` and `ei_shadow`
cleared, `pc0` set (60_exceptions.md R530). -/
def beginCall (s : State) : State :=
  { s with
    cpu := { s.cpu with intDeferred := false, halted := false, eiShadow := false }
    pc0 := s.cpu.pc }

/-- The deferred maskable interrupt (60_exceptions.md R531). -/
def deferredEntry (fire : Bool) (s : State) : Nat × State :=
  if fire then generateInterrupt false s.cfg.intBusByte s else (0, s)

/-- `EdgeDetect()` (60_exceptions.md R532). -/
def edgeDetect (s : State) : State :=
  match s.cfg.rIntBit with
  | none => s
  | some bit =>
    let fell := s.ula.prevR.getLsbD bit && !s.cpu.r.getLsbD bit
    { s with
      cpu := { s.cpu with intDeferred := s.cpu.intDeferred || fell }
      ula := { s.ula with prevR := s.cpu.r } }

/-- `int_countdown <- v`. -/
def setCountdown (v : Int) (s : State) : State := { s with cpu := { s.cpu with intCountdown := v } }

/-- The periodic countdown after `t` T-states and the interrupt it presents (60_exceptions.md R530, R533). -/
def countdownEntry (t : Nat) (s : State) : Nat × State :=
  if s.cfg.intPeriodT = 0 then (0, s)
  else
    let left := s.cpu.intCountdown - t
    if left ≤ 0 then
      let s := setCountdown (left + s.cfg.intPeriodT) s
      let (x, s) := generateInterrupt false s.cfg.intBusByte s
      (x, setCountdown (s.cpu.intCountdown - x) s)
    else (0, setCountdown left s)

/-- 1 when an entry was made. -/
def accepted (x : Nat) : Nat := if 0 < x then 1 else 0

/-- `LoadAccount(idle, t_ins, t_int, n_acc)` (60_exceptions.md R534). -/
def loadAccount (idle : Bool) (tIns tInt nAcc : Nat) (s : State) : State :=
  let tIdle := if idle then s.load.idle + tIns else s.load.idle
  let tActive := (if idle then s.load.active else s.load.active + tIns) + tInt
  let ints := s.load.ints + nAcc
  if s.cfg.loadAvgN ≤ ints then { s with load := ⟨0, 0, 0, tActive, tActive + tIdle⟩ }
  else { s with load := { s.load with idle := tIdle, active := tActive, ints := ints } }

/-- What follows the instruction in the same call (60_exceptions.md R530): deferred entry, edge detector,
countdown, load accounting. A fault of an entry abandons the rest (log 10). -/
def finishCall (fire : Bool) (s : State) : State :=
  let idle := s.cpu.halted
  let (x, s) := deferredEntry fire s
  if s.fault.isSome then s
  else
    let s := edgeDetect s
    let (y, s) := countdownEntry (s.tIns + x) s
    if s.fault.isSome then s
    else
      let s := loadAccount idle s.tIns (x + y) (accepted x + accepted y) s
      { s with tCall := s.tIns + x + y }

/-- `ExecuteOne()` (60_exceptions.md R530). On an unknown encoding the CPU is as before the call and the mark
`fault` is set (R501). -/
def executeOne (s : State) : Result :=
  let saved := s.cpu
  let (bytes, s) := fetchInstr (beginCall s)
  match decode bytes with
  | .error _ => .next { s with cpu := saved, fault := some (.unknownEncoding s.pc0 bytes) }
  | .ok (i, _) =>
    match exec i (setPC (s.pc0 + BitVec.ofNat 16 bytes.length) s) with
    | .next s => .next (finishCall saved.intDeferred s)
    | .fault f => .fault f
    | .refused r => .refused r

/-- Add an address to the coverage set (60_exceptions.md R567). -/
def addCoverage (a : Word) (s : State) : State :=
  if s.coverage.contains a then s else { s with coverage := s.coverage ++ [a] }

/-- What follows `ExecuteOne` in a machine step (60_exceptions.md R540): the ULA, `t_total`, coverage; nothing
when the call ended in a fault (log 11). -/
def finishStep (s : State) : State :=
  if s.fault.isSome then s
  else
    let (extra, s) := ulaStep s.tCall s
    addCoverage s.pc0 { s with tTotal := s.tTotal + s.tCall + extra }

/-- `MachineStep()` (60_exceptions.md R540); a fatal fault is left in the mark `fault`. -/
def machineStep (s : State) : Result :=
  match executeOne { s with failure := none } with
  | .next s => .next (finishStep s)
  | .fault f => .fault f
  | .refused r => .refused r

/-- The outcome of a step: a state whose mark `fault` is set is a fault (60_exceptions.md R500; log 12). -/
def outcome (s : State) : Result :=
  match s.fault with
  | some f => .fault f
  | none => .next s

end Sys2Proof.Machine
end

