-- ==== Sys2Proof/Machine/Step.lean ====
section
/-! DEFINITION. One step of the machine: `MachineStep` with its fault mark read as the outcome; and how a word of the
opcode table is placed where the next step fetches. -/

namespace Sys2Proof.Machine

/-- One machine step (60_exceptions.md R540). A machine whose mark `fault` is set takes no step
(10_state.md R62). -/
def step (s : State) : Host.Outcome State Fault Refusal :=
  match s.fault with
  | some f => .fault f
  | none =>
    match machineStep s with
    | .next s => outcome s
    | .fault f => .fault f
    | .refused r => .refused r

/-- The bytes of a table word stored where the next step fetches: at `PC`, as the host's `writeBlock` with
"allow ROM" (20_memory.md R102, 70_reset_and_hazards.md R605; logs 13, 24). -/
def State.withFetchWord (s : State) (nbits w : Nat) : State :=
  writeBlock true s.cpu.pc (tableBytes nbits w) s

end Sys2Proof.Machine
end

