-- ==== Sys2Proof/Machine/Debug.lean ====
section
/-! DEFINITION. The debug loop and the host's operations between steps (60_exceptions.md R560 to R582). `step` never
uses them. -/

namespace Sys2Proof.Machine

/-! ### Breakpoints (60_exceptions.md R563) -/

/-- What evaluating a breakpoint's condition answers (60_exceptions.md R563, R506). -/
inductive CondResult where
  | isTrue
  | isFalse
  | error
  deriving DecidableEq, Repr, Inhabited

/-- Condition number `id` as a function of the machine state, uninterpreted: its language is the host's
(60_exceptions.md R563; log 15). -/
opaque evalCondition : Nat → State → CondResult

/-- What a breakpoint's condition answers; an absent one is true (60_exceptions.md R563). -/
def Breakpoint.answer (s : State) (b : Breakpoint) : CondResult :=
  match b.condition with
  | none => .isTrue
  | some id => evalCondition id s

/-- The entry stops the run when `PC` is at its address (60_exceptions.md R563): its condition fails to evaluate
(R506), or it is true and the entry is not log-only. -/
def Breakpoint.stops (s : State) (b : Breakpoint) : Bool :=
  match b.answer s with
  | .error => true
  | .isFalse => false
  | .isTrue =>
    match b.action with
    | .stop | .logAndStop _ => true
    | .logOnly _ => false

/-- The message the entry emits when `PC` is at its address and its condition is true (60_exceptions.md R563;
log 15). -/
def Breakpoint.message (s : State) (b : Breakpoint) : Option Notice :=
  match b.answer s with
  | .error | .isFalse => none
  | .isTrue =>
    match b.action with
    | .stop => none
    | .logOnly template | .logAndStop template => some (.logMessage b.address template)

/-- The entries of the table at the new `PC`, in table order. -/
def breakpointsHere (s : State) : List Breakpoint := s.dbg.breakpoints.filter (fun b => b.address == s.cpu.pc)

/-- The breakpoint check on the new `PC` (60_exceptions.md R563): whether the run stops, and the state with the
messages emitted. Every condition is evaluated on the state the machine step left. -/
def breakpointCheck (s : State) : Bool × State :=
  let transient := s.dbg.transient1 == some s.cpu.pc || s.dbg.transient2 == some s.cpu.pc
  let here := breakpointsHere s
  (transient || here.any (Breakpoint.stops s), { s with notices := s.notices ++ here.filterMap (Breakpoint.message s) })

/-! ### The loop (60_exceptions.md R562, R565) -/

/-- Record a stop and return to Idle; the transient breakpoints end with the call (60_exceptions.md R561, R565). -/
def stopRun (record : StopRecord) (s : State) : State :=
  { s with dbg := { s.dbg with loop := .idle, transient1 := none, transient2 := none, lastStop := some record } }

/-- The instruction the next machine step runs, where its bytes decode. -/
def nextInstr (s : State) : Option Instr :=
  match decode (fetchInstr (beginCall s)).1 with
  | .ok (i, _) => some i
  | .error _ => none

/-- The next machine step runs a return that is taken (60_exceptions.md R572; log 16). -/
def runsTakenReturn (s : State) : Bool :=
  match nextInstr s with
  | some .ret | some .reti | some .retn => true
  | some (.retCC cc) => condHolds s cc
  | _ => false

/-- Items (6) to (8) of an iteration (60_exceptions.md R562, R571, R572). -/
def lateStops (single returned : Bool) (s : State) : State :=
  match s.watch.hit with
  | some (a, .read) => stopRun ⟨.watchpointRead, a, none⟩ s
  | some (a, .write) => stopRun ⟨.watchpointWrite, a, none⟩ s
  | none =>
    if s.dbg.pauseReq then
      stopRun ⟨.manualPause, s.cpu.pc, none⟩
        { s with
          dbg := { s.dbg with pauseReq := false }
          notices := s.notices ++ [.pauseAcknowledged] }
    else if single then stopRun ⟨.stepDone, s.cpu.pc, none⟩ s
    else if s.dbg.loop = .steppingOut ∧ returned ∧ s.dbg.sp0 < s.cpu.sp then
      stopRun ⟨.stepDone, s.cpu.pc, none⟩ s
    else s

/-- Items (3) to (8), on the state the machine step left. -/
def stopChecks (single returned : Bool) (s : State) : State :=
  if s.fault.isSome then stopRun ⟨.unexpectedFailure, s.pc0, none⟩ s
  else
    match s.failure with
    | some f => stopRun ⟨.unexpectedFailure, s.pc0, some f⟩ s
    | none =>
      let (stop, s) := breakpointCheck s
      if stop then stopRun ⟨.breakpointHit, s.cpu.pc, none⟩ s else lateStops single returned s

/-- `wp_hit <- none` (60_exceptions.md R566). -/
def clearHit (s : State) : State := { s with watch := { s.watch with hit := none } }

/-- One iteration of the loop (60_exceptions.md R562). After it `loop_state` is Idle exactly when a stop condition
held. -/
def iteration (single : Bool) (s : State) : Result :=
  let s := clearHit s
  match machineStep s with
  | .next s' => .next (stopChecks single (runsTakenReturn s) s')
  | .fault f => .fault f
  | .refused r => .refused r

/-- Up to `n` iterations, while the loop is not Idle (60_exceptions.md R562 item 9, R570). -/
def runBatch : Nat → State → Result
  | 0, s => .next s
  | n + 1, s =>
    if s.dbg.loop = .idle then .next s
    else
      match iteration false s with
      | .next s' => runBatch n s'
      | .fault f => .fault f
      | .refused r => .refused r

/-! ### Commands of the loop (60_exceptions.md R561, R568, R571, R572) -/

/-- The precondition of `continue`, `step` and step-out (60_exceptions.md R561). -/
def ready (s : State) : Bool := s.dbg.loop == .idle && s.fault.isNone

/-- `continue(bp1, bp2)` begins: the loop is Running (60_exceptions.md R561). -/
def beginContinue (bp1 bp2 : Option Word) (s : State) : State :=
  { s with dbg := { s.dbg with loop := .running, transient1 := bp1, transient2 := bp2 } }

/-- Step-out begins (60_exceptions.md R572). -/
def beginStepOut (s : State) : State :=
  { s with dbg := { s.dbg with loop := .steppingOut, sp0 := s.cpu.sp } }

/-- One batch of a run: `BATCH_N` iterations, then the loop yields (60_exceptions.md R570). -/
def resume (s : State) : Result := runBatch s.cfg.batchN s

/-- `step()` (60_exceptions.md R571). -/
def stepInto (s : State) : Result :=
  iteration true { s with dbg := { s.dbg with loop := .running } }

/-! ### Host operations between steps (60_exceptions.md R568, R575 to R580) -/

/-- The 8-bit registers the host names (60_exceptions.md R575). -/
inductive HostReg8 where
  | a | f | b | c | d | e | h | l
  | altA | altF | altB | altC | altD | altE | altH | altL
  | i | r
  deriving DecidableEq, Repr

/-- The 16-bit registers the host names (60_exceptions.md R575). -/
inductive HostReg16 where
  | bc | de | hl | af | altBC | altDE | altHL | altAF | ix | iy | sp | pc
  deriving DecidableEq, Repr

/-- The host reads an 8-bit register. -/
def hostGet8 (s : State) : HostReg8 → Byte
  | .a => s.cpu.a
  | .f => s.cpu.f.toByte
  | .b => s.cpu.b
  | .c => s.cpu.c
  | .d => s.cpu.d
  | .e => s.cpu.e
  | .h => s.cpu.h
  | .l => s.cpu.l
  | .altA => s.cpu.altA
  | .altF => s.cpu.altF.toByte
  | .altB => s.cpu.altB
  | .altC => s.cpu.altC
  | .altD => s.cpu.altD
  | .altE => s.cpu.altE
  | .altH => s.cpu.altH
  | .altL => s.cpu.altL
  | .i => s.cpu.i
  | .r => s.cpu.r

/-- The host sets an 8-bit register. -/
def hostSet8 (reg : HostReg8) (v : Byte) (s : State) : State :=
  let c := s.cpu
  match reg with
  | .a => { s with cpu := { c with a := v } }
  | .f => { s with cpu := { c with f := Flags.ofByte v } }
  | .b => { s with cpu := { c with b := v } }
  | .c => { s with cpu := { c with c := v } }
  | .d => { s with cpu := { c with d := v } }
  | .e => { s with cpu := { c with e := v } }
  | .h => { s with cpu := { c with h := v } }
  | .l => { s with cpu := { c with l := v } }
  | .altA => { s with cpu := { c with altA := v } }
  | .altF => { s with cpu := { c with altF := Flags.ofByte v } }
  | .altB => { s with cpu := { c with altB := v } }
  | .altC => { s with cpu := { c with altC := v } }
  | .altD => { s with cpu := { c with altD := v } }
  | .altE => { s with cpu := { c with altE := v } }
  | .altH => { s with cpu := { c with altH := v } }
  | .altL => { s with cpu := { c with altL := v } }
  | .i => { s with cpu := { c with i := v } }
  | .r => { s with cpu := { c with r := v } }

/-- The host reads a 16-bit register. -/
def hostGet16 (s : State) : HostReg16 → Word
  | .bc => bc s
  | .de => de s
  | .hl => hl s
  | .af => af s
  | .altBC => wordOf s.cpu.altB s.cpu.altC
  | .altDE => wordOf s.cpu.altD s.cpu.altE
  | .altHL => wordOf s.cpu.altH s.cpu.altL
  | .altAF => wordOf s.cpu.altA s.cpu.altF.toByte
  | .ix => s.cpu.ix
  | .iy => s.cpu.iy
  | .sp => s.cpu.sp
  | .pc => s.cpu.pc

/-- The host sets a 16-bit register; setting `PC` also clears `halted` (60_exceptions.md R575). -/
def hostSet16 (reg : HostReg16) (v : Word) (s : State) : State :=
  let c := s.cpu
  match reg with
  | .bc => setBC v s
  | .de => setDE v s
  | .hl => setHL v s
  | .af => setAF v s
  | .altBC => { s with cpu := { c with altB := hiByte v, altC := loByte v } }
  | .altDE => { s with cpu := { c with altD := hiByte v, altE := loByte v } }
  | .altHL => { s with cpu := { c with altH := hiByte v, altL := loByte v } }
  | .altAF => { s with cpu := { c with altA := hiByte v, altF := Flags.ofByte (loByte v) } }
  | .ix => setIX v s
  | .iy => setIY v s
  | .sp => setSP v s
  | .pc => { s with cpu := { c with pc := v, halted := false } }

/-- What the host may do between machine steps (60_exceptions.md R568, R575 to R580, R590). A bus read of a port is
named by R590 and 70_reset_and_hazards.md R616 only (log 35). There is none that raises an interrupt (R582; log 30). -/
inductive HostOp where
  | setReg8 (reg : HostReg8) (v : Byte)
  | setReg16 (reg : HostReg16) (v : Word)
  | setIM (mode : IntMode)
  | setIFF (iff1 iff2 : Bool)
  | busRead (a : Word)
  | busWrite (a : Word) (v : Byte)
  | portRead (port : Word)
  | writeBlock (a : Word) (bytes : List Byte) (allowRom : Bool)
  | setSlot (slot bank : Nat)
  | addBreakpoint (b : Breakpoint)
  | removeBreakpoint (b : Breakpoint)
  | setWatchpoint (a : Word) (len : Nat) (onRead onWrite : Bool)
  | removeWatchpoint (a : Word) (len : Nat) (onRead onWrite : Bool)
  | clearCoverage
  | clearActivity
  | pause
  deriving DecidableEq, Repr

/-- Why a host operation is not done. -/
inductive HostRefusal where
  /-- The loop is not Idle, and the operation is not `pause` (60_exceptions.md R560, R570). -/
  | notIdle
  /-- `pause` while the loop is Idle: it can be delivered only while a run has yielded (60_exceptions.md R568). -/
  | notYielded
  /-- `setSlot` was rejected; the mapping is unchanged (60_exceptions.md R577). -/
  | bankSwitchRejected (slot bank : Nat)
  /-- A snapshot of another configuration (93_implementation_defined.md U12). -/
  | otherConfiguration
  deriving DecidableEq, Repr

/-- The effect of a host operation on the state. -/
def hostEffect (s : State) : HostOp → Except HostRefusal State
  | .setReg8 reg v => .ok (hostSet8 reg v s)
  | .setReg16 reg v => .ok (hostSet16 reg v s)
  | .setIM mode => .ok { s with cpu := { s.cpu with im := mode } }
  | .setIFF iff1 iff2 => .ok { s with cpu := { s.cpu with iff1 := iff1, iff2 := iff2 } }
  | .busRead a => .ok (read8 a s).2
  | .busWrite a v => .ok (write8 a v s)
  | .portRead port => .ok (Machine.portRead port s).2
  | .writeBlock a bytes allowRom => .ok (Machine.writeBlock allowRom a bytes s)
  | .setSlot slot bank =>
    match Machine.setSlot slot bank s with
    | .ok s => .ok s
    | .error (slot, bank) => .error (.bankSwitchRejected slot bank)
  | .addBreakpoint b => .ok { s with dbg := { s.dbg with breakpoints := s.dbg.breakpoints ++ [b] } }
  | .removeBreakpoint b => .ok { s with dbg := { s.dbg with breakpoints := s.dbg.breakpoints.erase b } }
  | .setWatchpoint a len onRead onWrite => .ok (Machine.setWatchpoint a len onRead onWrite s)
  | .removeWatchpoint a len onRead onWrite => .ok (Machine.removeWatchpoint a len onRead onWrite s)
  | .clearCoverage => .ok { s with coverage := [] }
  | .clearActivity => .ok { s with activity := [] }
  | .pause => .ok { s with dbg := { s.dbg with pauseReq := true } }

/-- A host operation: legal while the loop is Idle, but `pause` while a run has yielded (60_exceptions.md R560, R568,
R570; log 27). -/
def hostDo (op : HostOp) (s : State) : Except HostRefusal State :=
  if op = .pause then (if s.dbg.loop = .idle then .error .notYielded else hostEffect s op)
  else if s.dbg.loop = .idle then hostEffect s op
  else .error .notIdle

/-! ### Interrupts raised from outside (00_scope.md R4) -/

/-- An interrupt raised from outside the machine at an instruction boundary (00_scope.md R4 "host-raised interrupts",
60_exceptions.md R510, R520): one `GenerateInterrupt`, whose T-states go to `t_total` (R540). It is no debug command:
60_exceptions.md R582 gives the host none, so `HostOp` has none. DESIGN CHOICE (log 30). -/
def raiseInterrupt (nmi : Bool) (bus : Byte) (s : State) : State :=
  let (t, s) := generateInterrupt nmi bus s
  { s with tTotal := s.tTotal + t }

/-! ### Observation (60_exceptions.md R580): functions of the state that change nothing -/

/-- `cpu_load` as a percentage (60_exceptions.md R534, R580). DESIGN CHOICE (log 37): the spec gives no rounding; here it
is rounded down, and a ratio with denominator 0 shows as 0. -/
def cpuLoadPercent (s : State) : Nat := 100 * s.load.ratioNum / s.load.ratioDen

/-- An address is in the coverage bitmap (60_exceptions.md R567). -/
def covered (s : State) (a : Word) : Bool := s.coverage.contains a

end Sys2Proof.Machine
end

