-- ==== Sys2Proof/Machine/Snapshot.lean ====
section
/-! DEFINITION. Snapshot and restore (60_exceptions.md R583, R584; 10_state.md R65). The snapshot is the tuple of the
saved state (93_implementation_defined.md U22; log 19). -/

namespace Sys2Proof.Machine

/-- The lengths a configuration requires of a snapshot: the number of slots, then the size of each bank
(60_exceptions.md R504). -/
def shapeOf (cfg : Config) : List Nat := cfg.slots.length :: cfg.banks.map Bank.size

/-- A snapshot: the sub-blocks in the order of 60_exceptions.md R583, after the lengths they were saved with. -/
structure Snapshot where
  cfg    : Config
  shape  : List Nat
  slots  : List Nat
  mem    : Memory
  cpu    : Cpu
  periph : List Byte
  script : List Byte
  ula    : Ula
  deriving DecidableEq, Repr

/-- `save()` (60_exceptions.md R583). -/
def save (s : State) : Snapshot :=
  { cfg := s.cfg
    shape := shapeOf s.cfg
    slots := s.slots
    mem := s.mem
    cpu := s.cpu
    periph := s.periph
    script := s.script
    ula := s.ula }

/-- The state after a snapshot has been taken over (60_exceptions.md R583): the saved items; the load statistics
reset; `fault` and `wp_hit` cleared; `t_total` and `cpu_load` free values (log 20). -/
def takeOver (snap : Snapshot) (s : State) : State :=
  { s with
    slots := snap.slots
    mem := snap.mem
    cpu := snap.cpu
    periph := snap.periph
    script := snap.script
    ula := snap.ula
    load := ⟨0, 0, 0, Config.freeNat s.draws, Config.freeNat (s.draws + 1)⟩
    tTotal := Config.freeNat (s.draws + 2)
    watch := { s.watch with hit := none }
    fault := none
    draws := s.draws + 3 }

/-- `restore(stream)` (60_exceptions.md R583, R504): `CorruptState` when the lengths do not match, refused for
another configuration (93_implementation_defined.md U12). DESIGN CHOICE (log 34): the spec leaves the state after
`CorruptState` unspecified (R504, U9); here every field but `fault` is as before the restore. -/
def restore (snap : Snapshot) (s : State) : Except HostRefusal State :=
  if s.dbg.loop ≠ .idle then .error .notIdle
  else if snap.shape ≠ shapeOf s.cfg ∨ snap.slots.length ≠ s.cfg.slots.length then
    .ok { s with fault := some .corruptState }
  else if snap.cfg ≠ s.cfg then .error .otherConfiguration
  else .ok (takeOver snap s)

end Sys2Proof.Machine
end

