-- ==== Sys2Proof/Safety.lean ====
section
/-! DEFINITION. The terms in which claims are stated: which registers, flags, bytes and bus effects an instruction
leaves as they were, what a store leaves in memory, and the invariant of a state. -/

namespace Sys2Proof.Machine

/-! ### Registers -/

/-- The registers and hidden CPU state of 10_state.md R31 to R49, but for `F`. -/
inductive Reg where
  | a | b | c | d | e | h | l
  | altA | altF | altB | altC | altD | altE | altH | altL
  | ix | iy | sp | pc | i | r
  | im | iff1 | iff2 | halted | eiShadow | intDeferred | intCountdown
  deriving DecidableEq, Repr

/-- The register holds in `t` what it holds in `s`. -/
def Reg.kept (s t : State) : Reg → Prop
  | .a => t.cpu.a = s.cpu.a
  | .b => t.cpu.b = s.cpu.b
  | .c => t.cpu.c = s.cpu.c
  | .d => t.cpu.d = s.cpu.d
  | .e => t.cpu.e = s.cpu.e
  | .h => t.cpu.h = s.cpu.h
  | .l => t.cpu.l = s.cpu.l
  | .altA => t.cpu.altA = s.cpu.altA
  | .altF => t.cpu.altF = s.cpu.altF
  | .altB => t.cpu.altB = s.cpu.altB
  | .altC => t.cpu.altC = s.cpu.altC
  | .altD => t.cpu.altD = s.cpu.altD
  | .altE => t.cpu.altE = s.cpu.altE
  | .altH => t.cpu.altH = s.cpu.altH
  | .altL => t.cpu.altL = s.cpu.altL
  | .ix => t.cpu.ix = s.cpu.ix
  | .iy => t.cpu.iy = s.cpu.iy
  | .sp => t.cpu.sp = s.cpu.sp
  | .pc => t.cpu.pc = s.cpu.pc
  | .i => t.cpu.i = s.cpu.i
  | .r => t.cpu.r = s.cpu.r
  | .im => t.cpu.im = s.cpu.im
  | .iff1 => t.cpu.iff1 = s.cpu.iff1
  | .iff2 => t.cpu.iff2 = s.cpu.iff2
  | .halted => t.cpu.halted = s.cpu.halted
  | .eiShadow => t.cpu.eiShadow = s.cpu.eiShadow
  | .intDeferred => t.cpu.intDeferred = s.cpu.intDeferred
  | .intCountdown => t.cpu.intCountdown = s.cpu.intCountdown

/-- Every register but those named is unchanged. -/
def RegsKept (written : List Reg) (s t : State) : Prop := ∀ reg : Reg, reg ∉ written → reg.kept s t

/-- All 8 bits of `F` are unchanged. -/
def FlagsKept (s t : State) : Prop := t.cpu.f = s.cpu.f

/-- The register that a code of table `R8` selects. -/
def regOf8 : Reg8 → Reg
  | .b => .b
  | .c => .c
  | .d => .d
  | .e => .e
  | .h => .h
  | .l => .l
  | .a => .a

/-- The 16-bit register that a code of table `R16` selects, as the host names it. -/
def pairOf16 : Reg16 → HostReg16
  | .bc => .bc
  | .de => .de
  | .hl => .hl
  | .sp => .sp

/-- The 16-bit register that a code of table `R16AF` selects, as the host names it. -/
def pairOf16AF : Reg16AF → HostReg16
  | .bc => .bc
  | .de => .de
  | .hl => .hl
  | .af => .af

/-- The registers a 16-bit register consists of, but for `F` and `F'`. -/
def regsOfPair : HostReg16 → List Reg
  | .bc => [.b, .c]
  | .de => [.d, .e]
  | .hl => [.h, .l]
  | .af => [.a]
  | .altBC => [.altB, .altC]
  | .altDE => [.altD, .altE]
  | .altHL => [.altH, .altL]
  | .altAF => [.altA, .altF]
  | .ix => [.ix]
  | .iy => [.iy]
  | .sp => [.sp]
  | .pc => [.pc]

/-! ### Memory -/

/-- The byte of the banks with key `bank * 65536 + offset`, mapped or not. -/
def cell (s : State) (key : Nat) : Byte := Sparse.get (unlistedByte s.cfg key) key s.mem

/-- The key of the bank byte that address `a` is mapped to. -/
def placeKey (s : State) (a : Word) : Option Nat := (locate s.cfg s.slots a).map Place.key

/-- Two addresses are mapped to one byte of one bank (20_memory.md R84). -/
def samePlace (s : State) (a b : Word) : Bool := (placeKey s a).isSome && placeKey s a == placeKey s b

/-- A bus write at `a` is stored: the bank mapped there is RAM (20_memory.md R83). -/
def writable (s : State) (a : Word) : Bool :=
  match locate s.cfg s.slots a with
  | some p => p.bank.kind == .ram
  | none => false

/-- What address `x` reads as after the bus writes `writes`, in order, on state `s`. -/
def readAfter (s : State) (writes : List (Word × Byte)) (x : Word) : Byte :=
  writes.foldl (fun old w => if samePlace s w.1 x && writable s w.1 then w.2 else old) (peek s x)

/-- What bank byte `key` holds after the bus writes `writes`, in order, on state `s`. -/
def cellAfter (s : State) (writes : List (Word × Byte)) (key : Nat) : Byte :=
  writes.foldl (fun old w => if placeKey s w.1 == some key && writable s w.1 then w.2 else old) (cell s key)

/-- No byte reads differently, and no byte of any bank has changed. -/
def MemoryKept (s t : State) : Prop := (∀ x, peek t x = peek s x) ∧ ∀ key, cell t key = cell s key

/-- Memory after the bus writes `writes`: each address reads what was last stored in its byte; every address that is
not mapped to a byte written reads as before; the same of the bytes of all banks. -/
def Stored (writes : List (Word × Byte)) (s t : State) : Prop :=
  (∀ x, peek t x = readAfter s writes x) ∧
  (∀ x, (∀ w ∈ writes, samePlace s w.1 x = false) → peek t x = peek s x) ∧
  ∀ key, cell t key = cellAfter s writes key

/-! ### Bus effects and everything else -/

/-- The watchpoint and activity state after the bus accesses `accesses`, in order (20_memory.md R95, R96, R105). -/
def Accessed (accesses : List (AccessKind × Word)) (s t : State) : Prop :=
  t.watch = accesses.foldl (fun w x => w.check x.1 x.2) s.watch ∧
  t.activity = accesses.foldl (fun m x => markAccess x.1 x.2 m) s.activity

/-- Reads at the addresses, in order. -/
def reads (addresses : List Word) : List (AccessKind × Word) := addresses.map (fun a => (.read, a))

/-- Writes at the addresses, in order. -/
def writes (addresses : List Word) : List (AccessKind × Word) := addresses.map (fun a => (.write, a))

/-- Nothing outside the CPU, the memory, the watchpoint hit record, the activity marks, the T-states of the
instruction and the count of draws has changed: configuration, slots, ports, ULA, debug loop, accounting, marks. -/
def OthersKept (s t : State) : Prop :=
  { t with
    cpu := s.cpu, mem := s.mem, watch := s.watch, activity := s.activity, tIns := s.tIns, draws := s.draws } = s

/-- As `OthersKept`, but for what a port access may change: the peripheral and script state, the slot table, the two
ULA signals and the failure it reports. -/
def OthersKeptButPorts (s t : State) : Prop :=
  { t with
    cpu := s.cpu, mem := s.mem, watch := s.watch, activity := s.activity, tIns := s.tIns, draws := s.draws
    periph := s.periph, script := s.script, slots := s.slots, failure := s.failure
    ula := { t.ula with syncReq := s.ula.syncReq, nmiOn := s.ula.nmiOn } } = s

/-- The six documented flags of `t` (10_state.md R36). -/
def flagsAre (t : State) (s z h pv n c : Bool) : Prop :=
  t.cpu.f.s = s ∧ t.cpu.f.z = z ∧ t.cpu.f.h = h ∧ t.cpu.f.pv = pv ∧ t.cpu.f.n = n ∧ t.cpu.f.c = c

/-- One instruction form in a claim about several: its T-states, the operand values the claim speaks of, and the bus
accesses its operation makes, in order. -/
structure Form (α : Type) where
  instr    : Instr
  cost     : Nat
  operand  : α
  accesses : List (AccessKind × Word) := []

/-- The instruction completes from `s` in `t`, with its cost, its bus accesses, and nothing changed but what those
and the CPU and memory hold. -/
def Form.completes {α : Type} (form : Form α) (s t : State) : Prop :=
  exec form.instr s = .next t ∧ t.tIns = form.cost ∧ Accessed form.accesses s t ∧ OthersKept s t

/-- An even number of the 8 bits is 1 (00_scope.md R10). -/
def evenOnes (v : Byte) : Bool := (List.range 8).countP (fun k => v.getLsbD k) % 2 == 0

/-- The two decimal digits of a number below 100, packed into a byte. -/
def bcd (x : Nat) : Byte := BitVec.ofNat 8 (x / 10 * 16 + x % 10)

/-- What a port access of the port dispatcher leaves: the peripheral and script state, the slot table, the ULA and
the failure of `w`, and nothing else of the state around the CPU and memory changed. -/
def PortEffect (w s t : State) : Prop :=
  t.periph = w.periph ∧ t.script = w.script ∧ t.slots = w.slots ∧ t.ula = w.ula ∧ t.failure = w.failure ∧
  OthersKeptButPorts s t

/-! ### Fetch and step -/

/-- The state in which the operation of an instruction of `length` bytes runs, when its fetch is not intercepted: the
bytes read, `pc0` marked as executed, `m1` increments of `R`, the hidden flags of the call cleared, `pc` past the
instruction (30_encoding.md R150, R152, R156; 60_exceptions.md R530). -/
def afterFetch (length m1 : Nat) (s : State) : State :=
  let addresses := (List.range length).map (fun k => s.cpu.pc + BitVec.ofNat 16 k)
  { s with
    cpu := { s.cpu with
      intDeferred := false, halted := false, eiShadow := false
      r := Nat.repeat nextR m1 s.cpu.r
      pc := s.cpu.pc + BitVec.ofNat 16 length }
    pc0 := s.cpu.pc
    watch := addresses.foldl (fun w a => w.check .read a) s.watch
    activity := (addresses.drop 1).foldl (fun m a => markAccess .read a m)
      (markExecuted s.cpu.pc (markAccess .read s.cpu.pc s.activity)) }

/-- What a step makes of the instruction's outcome: the rest of the call, the ULA, the accounting, the fault mark
(60_exceptions.md R530, R540). `fire` is the deferred request the call consumed. -/
def afterExec (fire : Bool) (outcomeOfExec : Result) : Result :=
  match outcomeOfExec with
  | .next u => outcome (finishStep (finishCall fire u))
  | .fault f => .fault f
  | .refused r => .refused r

/-- The instruction of a call of `ExecuteOne` on `s` has run and left `u`: the fetch, the decoding, the operation
(60_exceptions.md R530). -/
def Ran (s u : State) : Prop :=
  let fetched := fetchInstr (beginCall s)
  ∃ (i : Instr) (rest : List Byte), decode fetched.1 = .ok (i, rest) ∧
    exec i (setPC (s.cpu.pc + BitVec.ofNat 16 fetched.1.length) fetched.2) = .next u

/-! ### Interrupts in a call and in a ULA step -/

/-- The address an interrupt saves: past a `HALT`, else `PC` (60_exceptions.md R520). -/
def returnAddress (s : State) : Word := if s.cpu.halted then s.cpu.pc + 1#16 else s.cpu.pc

/-- The two bytes an interrupt pushes, in order (60_exceptions.md R520). -/
def entryPushes (s : State) : List (Word × Byte) :=
  [(s.cpu.sp - 1#16, hiByte (returnAddress s)), (s.cpu.sp - 2#16, loByte (returnAddress s))]

/-- A maskable request is accepted in `u` and does not fault (60_exceptions.md R502, R521). -/
def Accepts (bus : Byte) (u : State) : Prop :=
  u.cpu.iff1 = true ∧ u.cpu.eiShadow = false ∧ (u.cpu.im = .im0 → bus &&& 0xC7#8 = 0xC7#8)

/-- The T-states of a maskable entry (60_exceptions.md R522). -/
def maskableCost : IntMode → Nat
  | .im0 => 13
  | .im1 => 13
  | .im2 => 19

/-- From `u` to `t` a maskable interrupt was entered; the deferred request and the countdown are left open
(60_exceptions.md R520, R522). -/
def MaskableTaken (bus : Byte) (u t : State) : Prop :=
  let entry : Word := u.cpu.i ++ bus
  t.cpu.pc = (match u.cpu.im with
    | .im0 => (bus &&& 0x38#8).setWidth 16
    | .im1 => 0x0038#16
    | .im2 => readAfter u (entryPushes u) (entry + 1#16) ++ readAfter u (entryPushes u) entry) ∧
  t.cpu.sp = u.cpu.sp - 2#16 ∧ t.cpu.r = (u.cpu.r &&& 0x80#8) ||| ((u.cpu.r + 1#8) &&& 0x7F#8) ∧
  t.cpu.iff1 = false ∧ t.cpu.iff2 = false ∧ t.cpu.halted = false ∧ Stored (entryPushes u) u t ∧
  FlagsKept u t ∧ RegsKept [.pc, .sp, .r, .iff1, .iff2, .halted, .intDeferred, .intCountdown] u t

/-- From `u` to `t` no interrupt was entered; the deferred request and the countdown are left open. -/
def NotEntered (u t : State) : Prop :=
  FlagsKept u t ∧ RegsKept [.intDeferred, .intCountdown] u t ∧ MemoryKept u t

/-- From `u` to `t` a non-maskable interrupt was entered (60_exceptions.md R520, R522). -/
def NmiTaken (u t : State) : Prop :=
  t.cpu.pc = 0x0066#16 ∧ t.cpu.sp = u.cpu.sp - 2#16 ∧
  t.cpu.r = (u.cpu.r &&& 0x80#8) ||| ((u.cpu.r + 1#8) &&& 0x7F#8) ∧
  t.cpu.iff1 = false ∧ t.cpu.halted = false ∧ Stored (entryPushes u) u t ∧
  FlagsKept u t ∧ RegsKept [.pc, .sp, .r, .iff1, .halted] u t

/-- `n` calls of `ExecuteOne` and the sum of the T-states they return; none when one of them ends in a fault
(60_exceptions.md R533). -/
def runCalls : Nat → State → Option (State × Nat)
  | 0, s => some (s, 0)
  | n + 1, s =>
    match executeOne s with
    | .next t =>
      if t.fault.isSome then none
      else (runCalls n t).map (fun r => (r.1, t.tCall + r.2))
    | .fault _ => none
    | .refused _ => none

/-- The generator is off and there is no vertical sync and no request for one (60_exceptions.md R552). -/
def quiet (s : State) : Bool := !s.ula.nmiOn && !s.ula.syncReq && !s.ula.vsync

/-- `n` machine steps in which every state is `quiet`; none otherwise (60_exceptions.md R552). -/
def quietSteps : Nat → State → Option State
  | 0, s => if quiet s then some s else none
  | n + 1, s =>
    if quiet s then
      match step s with
      | .next t => quietSteps n t
      | .fault _ => none
      | .refused _ => none
    else none

/-- A frame without its colour plane. -/
def Frame.withoutColors : Frame → Frame
  | .bytes data => .bytes data
  | .lines work _ => .lines work []

/-- The ULA without the colour plane, whose bytes may depend on the whole machine state and which nothing of the
machine reads back (60_exceptions.md R553, R555; log 17). -/
def Ula.withoutColors (u : Ula) : Ula :=
  { u with colorRec := [], colorWork := [], frame := u.frame.map Frame.withoutColors }

/-- The colour bytes do not depend on the machine state: there is no colour plane, or its byte is fixed. -/
def ColorsFixed (cfg : Config) : Prop := cfg.colorMode = false ∨ ∃ v, cfg.colorSource = .fixed v

/-- What a program can observe or influence, and what decides its further run: everything but the debug loop, the
watchpoints, coverage, activity, notifications, accounting, `t_total` and the colour plane (60_exceptions.md R555,
R590). -/
structure ProgramView where
  cfg    : Config
  cpu    : Cpu
  mem    : Memory
  slots  : List Nat
  periph : List Byte
  script : List Byte
  ula    : Ula
  draws  : Nat
  deriving DecidableEq, Repr

/-- The program's view of a state. -/
def programView (s : State) : ProgramView :=
  { cfg := s.cfg
    cpu := s.cpu
    mem := s.mem
    slots := s.slots
    periph := s.periph
    script := s.script
    ula := s.ula.withoutColors
    draws := s.draws }

/-! ### Machines without ULA and interrupt sources -/

/-- No ULA and no interrupt source is configured, and no deferred request is pending (60_exceptions.md R541). -/
def Plain (s : State) : Prop :=
  s.cfg.ulaVariant = .none ∧ s.cfg.intPeriodT = 0 ∧ s.cfg.rIntBit = none ∧ s.cpu.intDeferred = false

/-! ### The invariant of a state -/

/-- What holds of the machine at all times: the configuration is well formed (00_scope.md R9); the slot table holds
allowed banks only (10_state.md R53); memory, watchpoint counts and activity marks are in canonical form; no address
is twice in the coverage list (R56); the countdown is in its range (R49); the load window has not filled (R51). -/
structure Inv (s : State) : Prop where
  config    : s.cfg.check = none
  slots     : s.cfg.tableAllowed s.slots = true
  memory    : Memory.wf s.cfg s.mem = true
  watchRead : Sparse.wf (fun _ => 0) s.watch.read = true
  watchWrite : Sparse.wf (fun _ => 0) s.watch.write = true
  activity  : Sparse.wf (fun _ => noMarks) s.activity = true
  coverage  : s.coverage.Nodup
  countdown : s.cfg.intPeriodT = 0 ∨ (0 < s.cpu.intCountdown ∧ s.cpu.intCountdown ≤ s.cfg.intPeriodT)
  loadCount : s.load.ints < s.cfg.loadAvgN

/-- The scanline clock between steps: `line_t` is no later than `ula.t`, and below `T_SCANLINE` (10_state.md R58) unless
the NMI generator is on, whose entry may carry it beyond (60_exceptions.md R547). An invariant of a step, but not of
every instruction: the `OUT` that switches the generator off leaves it to the ULA step that follows. -/
def UlaClock (s : State) : Prop :=
  s.ula.lineT ≤ s.ula.t ∧
  (s.cfg.ulaVariant = .none ∨ s.ula.nmiOn = true ∨ s.ula.lineT < s.cfg.tScanline)

end Sys2Proof.Machine
end

