-- ==== Sys2Proof/Certificates/Slice0/Obligations.lean ====
section
/-! DEFINITION. The statements for the provers. Each docstring names the rules of spec/ it comes from. An instruction
statement says that `exec` completes, what it writes, and what it leaves as it was. -/

open Sys2Proof Sys2Proof.Machine

/-- Reset leaves PC, I, R, IM, the flip-flops, hidden flags, counters, tables and marks at the values the spec states (10_state.md R64, 70_reset_and_hazards.md R601, 70_reset_and_hazards.md R602, 70_reset_and_hazards.md R603) -/
def Obligations.ResetState : Prop :=
  ∀ (cfg : Config) (launch : Launch),
    let s := State.resetWith cfg launch
    s.cfg = cfg ∧ s.cpu.pc = 0x0000#16 ∧ s.cpu.i = 0x00#8 ∧ s.cpu.r = 0x00#8 ∧ s.cpu.im = .im0 ∧
    s.cpu.iff1 = false ∧ s.cpu.iff2 = false ∧
    s.cpu.halted = false ∧ s.cpu.eiShadow = false ∧ s.cpu.intDeferred = false ∧
    s.cpu.intCountdown = cfg.intPeriodT ∧
    s.tTotal = 0 ∧ s.load.idle = 0 ∧ s.load.active = 0 ∧ s.load.ints = 0 ∧
    (∀ b bank offset, cfg.banks[b]? = some bank → offset < 65536 →
      cell s (b * 65536 + offset) =
        match bank.image with
        | some image => image.getD offset bank.fill
        | none => bank.fill) ∧
    s.slots = cfg.initSlot ∧
    (∀ kind a, s.watch.count kind a = 0) ∧ s.watch.hit = none ∧
    s.coverage = [] ∧ (∀ a, marksAt s a = ⟨false, false, false⟩) ∧
    s.periph = cfg.periphInit ∧ s.script = cfg.scriptInit ∧
    s.ula.t = 0 ∧ s.ula.lineT = 0 ∧ s.ula.line = 0 ∧ s.ula.hsyncEdgeT = 0 ∧
    s.ula.vsyncStartT = 0 ∧ s.ula.vsyncEndT = 0 ∧ s.ula.frameT = 0 ∧
    s.ula.vsync = false ∧ s.ula.syncReq = false ∧ s.ula.nmiOn = false ∧
    s.ula.prevR = 0x00#8 ∧ s.ula.frame = none ∧
    s.ula.scanRec = [] ∧ s.ula.work = [] ∧ s.ula.colorRec = [] ∧ s.ula.colorWork = [] ∧
    s.dbg.loop = .idle ∧ s.dbg.breakpoints = [] ∧
    s.dbg.transient1 = none ∧ s.dbg.transient2 = none ∧ s.dbg.pauseReq = false ∧
    s.fault = none ∧
    s.cpu.a = launch.a ∧ s.cpu.f = launch.f ∧ s.cpu.b = launch.b ∧ s.cpu.c = launch.c ∧
    s.cpu.d = launch.d ∧ s.cpu.e = launch.e ∧ s.cpu.h = launch.h ∧ s.cpu.l = launch.l ∧
    s.cpu.altA = launch.altA ∧ s.cpu.altF = launch.altF ∧ s.cpu.altB = launch.altB ∧
    s.cpu.altC = launch.altC ∧ s.cpu.altD = launch.altD ∧ s.cpu.altE = launch.altE ∧
    s.cpu.altH = launch.altH ∧ s.cpu.altL = launch.altL ∧
    s.cpu.ix = launch.ix ∧ s.cpu.iy = launch.iy ∧ s.cpu.sp = launch.sp

/-- A machine that construction accepts meets the invariant right after reset, and so does the reset machine of the model (00_scope.md R9, 10_state.md R49, 10_state.md R53, 10_state.md R64, 70_reset_and_hazards.md R601) -/
def Obligations.InvariantAtReset : Prop :=
  (∀ (cfg : Config) (launch : Launch), cfg.check = none →
    State.construct cfg launch = .ok (State.resetWith cfg launch) ∧ Inv (State.resetWith cfg launch) ∧
      UlaClock (State.resetWith cfg launch) ∧ (State.resetWith cfg launch).ula.pendingChar = none) ∧
  Inv State.reset ∧ UlaClock State.reset ∧ State.reset.ula.pendingChar = none

/-- Every step from a state that meets the invariant ends in a state that meets it (10_state.md R49, 10_state.md R53, 10_state.md R56, 60_exceptions.md R530, 60_exceptions.md R533, 60_exceptions.md R534, 60_exceptions.md R540, 60_exceptions.md R547, 10_state.md R58) -/
def Obligations.InvariantKept : Prop :=
  ∀ s t : State, Inv s → step s = .next t → Inv t ∧ (UlaClock s → UlaClock t) ∧
    (s.ula.pendingChar = none → t.ula.pendingChar = none)

/-- Words written out from the encodings of the spec decode to the instructions they stand for (30_encoding.md R147, 30_encoding.md R148, 30_encoding.md R149, 30_encoding.md R153, 30_encoding.md R154, 30_encoding.md R155) -/
def Obligations.DecodeWords : Prop :=
  ∀ n : Byte,
    decode [0x41#8, n] = .ok (.ldRR .b .c, [n]) ∧
    decode [0x36#8, n] = .ok (.ldAtHLN n, []) ∧
    decode [0xED#8, 0x4B#8, 0x30#8, 0x21#8] = .ok (.ldDDAtNN .bc 0x2130#16, []) ∧
    decode [0xDD#8, 0x36#8, 0x05#8, n] = .ok (.ldAtIXN 0x05#8 n, []) ∧
    decode [0xF5#8] = .ok (.pushQQ .af, []) ∧
    decode [0xED#8, 0xB0#8] = .ok (.ldir, []) ∧
    decode [0xFD#8, 0x8E#8, n] = .ok (.adcAAtIY n, []) ∧
    decode [0x76#8] = .ok (.halt, []) ∧
    decode [0xED#8, 0x72#8] = .ok (.sbcHLSS .sp, []) ∧
    decode [0xDD#8, 0xCB#8, n, 0x1E#8] = .ok (.rrAtIX n, []) ∧
    decode [0xCB#8, 0x7E#8] = .ok (.bitBAtHL 7, []) ∧
    decode [0xFD#8, 0xCB#8, n, 0xD6#8] = .ok (.setBAtIY 2 n, []) ∧
    decode [0xFA#8, 0x34#8, 0x12#8] = .ok (.jpCCNN .m 0x1234#16, []) ∧
    decode [0xDF#8] = .ok (.rst 0x0018#16, []) ∧
    decode [0xED#8, 0x59#8] = .ok (.outCR .e, [])

/-- Decoding the encoding of a well-formed instruction gives the instruction back, whatever bytes follow (30_encoding.md R141, 30_encoding.md R142, 30_encoding.md R155, 30_encoding.md R156, 30_encoding.md R157) -/
def Obligations.DecodeOfEncode : Prop :=
  ∀ (i : Instr) (rest : List Byte), i.wf = true → decode (encode i ++ rest) = .ok (i, rest)

/-- Whatever the decoder accepts is well formed, and its bytes are exactly the encoding of the instruction it answers (30_encoding.md R146, 30_encoding.md R156, 30_encoding.md R157, 30_encoding.md R160) -/
def Obligations.EncodeOfDecode : Prop :=
  ∀ (bytes rest : List Byte) (i : Instr), decode bytes = .ok (i, rest) → i.wf = true ∧ bytes = encode i ++ rest

/-- When the bytes at PC decode to an instruction, a step runs exactly its meaning, after the fetch and before the rest of the call (30_encoding.md R150, 30_encoding.md R152, 30_encoding.md R156, 10_state.md R43, 60_exceptions.md R530, 60_exceptions.md R540) -/
def Obligations.StepRunsDecoded : Prop :=
  ∀ (s : State) (i : Instr) (rest : List Byte),
    s.fault = none → intercepts s s.cpu.pc = false →
    decode (readBlock s s.cpu.pc 4) = .ok (i, rest) →
    step s =
      afterExec s.cpu.intDeferred
        (exec i (afterFetch (4 - rest.length) (m1Fetches (peek s s.cpu.pc)) { s with failure := none }))

/-- With no ULA, no interrupt source and no fault, a step is the rule of the instruction plus t_total <- t_total + T (60_exceptions.md R541, 60_exceptions.md R540, 60_exceptions.md R567) -/
def Obligations.PlainStepIsTheInstruction : Prop :=
  ∀ (s u : State) (i : Instr) (rest : List Byte),
    s.fault = none → Plain s →
    decode (readBlock s s.cpu.pc 4) = .ok (i, rest) →
    exec i (afterFetch (4 - rest.length) (m1Fetches (peek s s.cpu.pc)) { s with failure := none }) = .next u →
    ∃ t, step s = .next t ∧
      t.cpu = u.cpu ∧ t.mem = u.mem ∧ t.slots = u.slots ∧ t.periph = u.periph ∧ t.script = u.script ∧
      t.ula = u.ula ∧ t.watch = u.watch ∧ t.activity = u.activity ∧ t.failure = u.failure ∧ t.cfg = s.cfg ∧
      t.dbg = s.dbg ∧ t.tTotal = s.tTotal + u.tIns ∧ s.tTotal + 4 ≤ t.tTotal ∧
      (∀ a, a ∈ t.coverage ↔ a ∈ s.coverage ∨ a = s.cpu.pc)

/-- An unknown encoding ends the step with its fault and leaves the CPU, memory, slots, ports and t_total as before; no step follows. That coverage is as before is the model's reading (log 11) (30_encoding.md R160, 60_exceptions.md R501, 60_exceptions.md R509, 10_state.md R62) -/
def Obligations.UnknownEncodingStops : Prop :=
  ∀ (s : State) (bytes : List Byte),
    s.fault = none → intercepts s s.cpu.pc = false →
    decode (readBlock s s.cpu.pc 4) = .error (.unknownEncoding bytes) →
    step s = .fault (.unknownEncoding s.cpu.pc bytes) ∧
    ∃ t, machineStep s = .next t ∧ t.fault = some (.unknownEncoding s.cpu.pc bytes) ∧
      t.cpu = s.cpu ∧ t.mem = s.mem ∧ t.slots = s.slots ∧ t.periph = s.periph ∧ t.script = s.script ∧
      t.ula = s.ula ∧ t.cfg = s.cfg ∧ t.load = s.load ∧ t.tTotal = s.tTotal ∧ t.coverage = s.coverage ∧
      t.dbg = s.dbg ∧ step t = .fault (.unknownEncoding s.cpu.pc bytes)

/-- An instruction takes 4 to 23 T-states, a call of ExecuteOne 4 to 42, and a step adds at least 4 to t_total (70_reset_and_hazards.md R622) -/
def Obligations.CostBounds : Prop :=
  (∀ (i : Instr) (s t : State), exec i s = .next t → 4 ≤ t.tIns ∧ t.tIns ≤ 23) ∧
  (∀ s t : State, s.fault = none → executeOne s = .next t → t.fault = none → 4 ≤ t.tCall ∧ t.tCall ≤ 42) ∧
  ∀ s t : State, step s = .next t →
    s.tTotal + 4 ≤ t.tTotal ∧
    ∃ u, executeOne { s with failure := none } = .next u ∧ t.tTotal = s.tTotal + u.tCall + (ulaStep u.tCall u).1

/-- Only the instructions the spec names reach the shadow set, I, R, IM, the flip-flops, halted, ei_shadow and the slot table (10_state.md R33, 10_state.md R34, 10_state.md R42, 10_state.md R44, 10_state.md R45, 10_state.md R46, 10_state.md R47, 10_state.md R53) -/
def Obligations.RegisterOwnership : Prop :=
  ∀ (i : Instr) (s t : State), exec i s = .next t →
    (i ≠ .exAFAF → t.cpu.altA = s.cpu.altA ∧ t.cpu.altF = s.cpu.altF) ∧
    (i ≠ .exx → t.cpu.altB = s.cpu.altB ∧ t.cpu.altC = s.cpu.altC ∧ t.cpu.altD = s.cpu.altD ∧
      t.cpu.altE = s.cpu.altE ∧ t.cpu.altH = s.cpu.altH ∧ t.cpu.altL = s.cpu.altL) ∧
    (i ∉ [.im0, .im1, .im2] → t.cpu.im = s.cpu.im) ∧
    (i ≠ .ldIA → t.cpu.i = s.cpu.i) ∧
    (i ≠ .ldRefreshA → t.cpu.r = s.cpu.r) ∧
    (i ∉ [.di, .ei, .retn] → t.cpu.iff1 = s.cpu.iff1) ∧
    (i ∉ [.di, .ei] → t.cpu.iff2 = s.cpu.iff2) ∧
    (i ≠ .halt → t.cpu.halted = s.cpu.halted) ∧
    (i ≠ .ei → t.cpu.eiShadow = s.cpu.eiShadow) ∧
    ((∀ nn pp, i ∉ [.ldIXNN nn, .ldIXAtNN nn, .popIX, .exAtSPIX, .addIXPP pp, .incIX, .decIX]) →
      t.cpu.ix = s.cpu.ix) ∧
    ((∀ nn rr, i ∉ [.ldIYNN nn, .ldIYAtNN nn, .popIY, .exAtSPIY, .addIYRR rr, .incIY, .decIY]) →
      t.cpu.iy = s.cpu.iy) ∧
    ((∀ n r, i ∉ [.outNA n, .outCR r, .outi, .otir, .outd, .otdr]) →
      t.slots = s.slots ∧ t.script = s.script ∧ t.failure = s.failure) ∧
    t.cpu.intDeferred = s.cpu.intDeferred ∧ t.cpu.intCountdown = s.cpu.intCountdown ∧
    t.cfg = s.cfg ∧ t.pc0 = s.pc0 ∧ t.dbg = s.dbg ∧ t.load = s.load ∧ t.coverage = s.coverage ∧
    t.tTotal = s.tTotal ∧ t.notices = s.notices ∧ t.fault = s.fault

/-- No step changes a byte of a ROM or UNMAPPED bank (10_state.md R52, 20_memory.md R83, 20_memory.md R104) -/
def Obligations.RomImmutable : Prop :=
  ∀ s t : State, Inv s → step s = .next t →
    ∀ b bank offset, s.cfg.banks[b]? = some bank → bank.kind ≠ .ram → offset < 65536 →
      cell t (b * 65536 + offset) = cell s (b * 65536 + offset)

/-- 8-bit loads into a register: the value, the T-states, the bus reads, and nothing else changed (40_load8.md R200, 40_load8.md R201, 40_load8.md R202, 40_load8.md R203, 40_load8.md R204, 40_load8.md R211, 40_load8.md R212, 40_load8.md R213) -/
def Obligations.ByteLoads : Prop :=
  ∀ (s : State) (dst src : Reg8) (n disp : Byte) (nn : Word),
    let ix := s.cpu.ix + disp.signExtend 16
    let iy := s.cpu.iy + disp.signExtend 16
    let forms : List (Form (Reg8 × Byte)) :=
      [ { instr := .ldRR dst src, cost := 4, operand := (dst, r8 s src) },
        { instr := .ldRN dst n, cost := 7, operand := (dst, n) },
        { instr := .ldRAtHL dst, cost := 7, operand := (dst, peek s (hl s)), accesses := reads [hl s] },
        { instr := .ldRAtIX dst disp, cost := 19, operand := (dst, peek s ix), accesses := reads [ix] },
        { instr := .ldRAtIY dst disp, cost := 19, operand := (dst, peek s iy), accesses := reads [iy] },
        { instr := .ldAAtBC, cost := 7, operand := (.a, peek s (bc s)), accesses := reads [bc s] },
        { instr := .ldAAtDE, cost := 7, operand := (.a, peek s (de s)), accesses := reads [de s] },
        { instr := .ldAAtNN nn, cost := 13, operand := (.a, peek s nn), accesses := reads [nn] } ]
    ∀ form ∈ forms, ∃ t, form.completes s t ∧ r8 t form.operand.1 = form.operand.2 ∧
      FlagsKept s t ∧ RegsKept [regOf8 form.operand.1] s t ∧ MemoryKept s t

/-- 8-bit stores: the byte stored at the computed address, the bus write, and nothing else changed (40_load8.md R205, 40_load8.md R206, 40_load8.md R207, 40_load8.md R208, 40_load8.md R209, 40_load8.md R210, 40_load8.md R214, 40_load8.md R215, 40_load8.md R216) -/
def Obligations.ByteStores : Prop :=
  ∀ (s : State) (src : Reg8) (n disp : Byte) (nn : Word), Memory.wf s.cfg s.mem = true →
    let ix := s.cpu.ix + disp.signExtend 16
    let iy := s.cpu.iy + disp.signExtend 16
    let forms : List (Form (Word × Byte)) :=
      [ { instr := .ldAtHLR src, cost := 7, operand := (hl s, r8 s src), accesses := writes [hl s] },
        { instr := .ldAtIXR disp src, cost := 19, operand := (ix, r8 s src), accesses := writes [ix] },
        { instr := .ldAtIYR disp src, cost := 19, operand := (iy, r8 s src), accesses := writes [iy] },
        { instr := .ldAtHLN n, cost := 10, operand := (hl s, n), accesses := writes [hl s] },
        { instr := .ldAtIXN disp n, cost := 19, operand := (ix, n), accesses := writes [ix] },
        { instr := .ldAtIYN disp n, cost := 19, operand := (iy, n), accesses := writes [iy] },
        { instr := .ldAtBCA, cost := 7, operand := (bc s, s.cpu.a), accesses := writes [bc s] },
        { instr := .ldAtDEA, cost := 7, operand := (de s, s.cpu.a), accesses := writes [de s] },
        { instr := .ldAtNNA nn, cost := 13, operand := (nn, s.cpu.a), accesses := writes [nn] } ]
    ∀ form ∈ forms, ∃ t, form.completes s t ∧ Stored [form.operand] s t ∧ FlagsKept s t ∧ RegsKept [] s t

/-- LD A,I and LD A,R load A and set the flags, PV from IFF2; LD I,A and LD R,A copy A and no flag (40_load8.md R217, 40_load8.md R218, 40_load8.md R219, 40_load8.md R220, 10_state.md R41, 10_state.md R42) -/
def Obligations.SpecialLoads : Prop :=
  ∀ s : State,
    (∀ form ∈ ([ { instr := .ldAI, cost := 9, operand := s.cpu.i },
        { instr := .ldARefresh, cost := 9, operand := s.cpu.r } ] : List (Form Byte)),
      ∃ t, form.completes s t ∧ t.cpu.a = form.operand ∧
        flagsAre t (decide (form.operand.toInt < 0)) (decide (form.operand = 0#8)) false s.cpu.iff2 false s.cpu.f.c ∧
        RegsKept [.a] s t ∧ MemoryKept s t) ∧
    (∃ t, ({ instr := .ldIA, cost := 9, operand := () } : Form Unit).completes s t ∧ t.cpu.i = s.cpu.a ∧
      FlagsKept s t ∧ RegsKept [.i] s t ∧ MemoryKept s t) ∧
    ∃ t, ({ instr := .ldRefreshA, cost := 9, operand := () } : Form Unit).completes s t ∧ t.cpu.r = s.cpu.a ∧
      FlagsKept s t ∧ RegsKept [.r] s t ∧ MemoryKept s t

/-- 16-bit loads into a register pair, IX, IY or SP: the value, low byte at the lower address, and nothing else changed (41_load16.md R230, 41_load16.md R231, 41_load16.md R232, 41_load16.md R233, 41_load16.md R234, 41_load16.md R235, 41_load16.md R236, 41_load16.md R241, 41_load16.md R242, 41_load16.md R243, 20_memory.md R85, 20_memory.md R91) -/
def Obligations.WordLoads : Prop :=
  ∀ (s : State) (dd : Reg16) (nn : Word),
    let loaded : Word := peek s (nn + 1#16) ++ peek s nn
    let bus := reads [nn, nn + 1#16]
    let forms : List (Form (HostReg16 × Word)) :=
      [ { instr := .ldDDNN dd nn, cost := 10, operand := (pairOf16 dd, nn) },
        { instr := .ldIXNN nn, cost := 14, operand := (.ix, nn) },
        { instr := .ldIYNN nn, cost := 14, operand := (.iy, nn) },
        { instr := .ldSPHL, cost := 6, operand := (.sp, hl s) },
        { instr := .ldSPIX, cost := 10, operand := (.sp, s.cpu.ix) },
        { instr := .ldSPIY, cost := 10, operand := (.sp, s.cpu.iy) },
        { instr := .ldHLAtNN nn, cost := 16, operand := (.hl, loaded), accesses := bus },
        { instr := .ldDDAtNN dd nn, cost := 20, operand := (pairOf16 dd, loaded), accesses := bus },
        { instr := .ldIXAtNN nn, cost := 20, operand := (.ix, loaded), accesses := bus },
        { instr := .ldIYAtNN nn, cost := 20, operand := (.iy, loaded), accesses := bus } ]
    ∀ form ∈ forms, ∃ t, form.completes s t ∧ hostGet16 t form.operand.1 = form.operand.2 ∧
      FlagsKept s t ∧ RegsKept (regsOfPair form.operand.1) s t ∧ MemoryKept s t

/-- 16-bit stores: low byte at nn first, high byte at nn + 1, and nothing else changed (41_load16.md R237, 41_load16.md R238, 41_load16.md R239, 41_load16.md R240, 20_memory.md R85, 20_memory.md R86, 20_memory.md R93) -/
def Obligations.WordStores : Prop :=
  ∀ (s : State) (dd : Reg16) (nn : Word), Memory.wf s.cfg s.mem = true →
    let bus := writes [nn, nn + 1#16]
    let forms : List (Form Word) :=
      [ { instr := .ldAtNNHL nn, cost := 16, operand := hl s, accesses := bus },
        { instr := .ldAtNNDD nn dd, cost := 20, operand := r16 s dd, accesses := bus },
        { instr := .ldAtNNIX nn, cost := 20, operand := s.cpu.ix, accesses := bus },
        { instr := .ldAtNNIY nn, cost := 20, operand := s.cpu.iy, accesses := bus } ]
    ∀ form ∈ forms, ∃ t, form.completes s t ∧
      Stored [(nn, loByte form.operand), (nn + 1#16, hiByte form.operand)] s t ∧
      FlagsKept s t ∧ RegsKept [] s t

/-- PUSH stores the high byte at SP - 1, then the low byte at SP - 2, and lowers SP by 2 (41_load16.md R244, 41_load16.md R245, 41_load16.md R246, 10_state.md R35, 10_state.md R36) -/
def Obligations.Pushes : Prop :=
  ∀ (s : State) (qq : Reg16AF), Memory.wf s.cfg s.mem = true →
    let bus := writes [s.cpu.sp - 1#16, s.cpu.sp - 2#16]
    let forms : List (Form Word) :=
      [ { instr := .pushQQ qq, cost := 11, operand := hostGet16 s (pairOf16AF qq), accesses := bus },
        { instr := .pushIX, cost := 15, operand := s.cpu.ix, accesses := bus },
        { instr := .pushIY, cost := 15, operand := s.cpu.iy, accesses := bus } ]
    ∀ form ∈ forms, ∃ t, form.completes s t ∧ t.cpu.sp = s.cpu.sp - 2#16 ∧
      Stored [(s.cpu.sp - 1#16, hiByte form.operand), (s.cpu.sp - 2#16, loByte form.operand)] s t ∧
      FlagsKept s t ∧ RegsKept [.sp] s t

/-- POP reads the low byte at SP, then the high byte at SP + 1, and raises SP by 2; POP AF writes all 8 bits of F (41_load16.md R247, 41_load16.md R248, 41_load16.md R249, 10_state.md R35, 10_state.md R37) -/
def Obligations.Pops : Prop :=
  ∀ (s : State) (qq : Reg16AF),
    let popped : Word := peek s (s.cpu.sp + 1#16) ++ peek s s.cpu.sp
    let bus := reads [s.cpu.sp, s.cpu.sp + 1#16]
    let forms : List (Form HostReg16) :=
      [ { instr := .popQQ qq, cost := 10, operand := pairOf16AF qq, accesses := bus },
        { instr := .popIX, cost := 14, operand := .ix, accesses := bus },
        { instr := .popIY, cost := 14, operand := .iy, accesses := bus } ]
    ∀ form ∈ forms, ∃ t, form.completes s t ∧ t.cpu.sp = s.cpu.sp + 2#16 ∧
      hostGet16 t form.operand = popped ∧
      (form.operand ≠ .af → FlagsKept s t) ∧
      (form.operand = .af → t.cpu.f.y = (peek s s.cpu.sp).getLsbD 5 ∧ t.cpu.f.x = (peek s s.cpu.sp).getLsbD 3 ∧
        flagsAre t ((peek s s.cpu.sp).getLsbD 7) ((peek s s.cpu.sp).getLsbD 6) ((peek s s.cpu.sp).getLsbD 4)
          ((peek s s.cpu.sp).getLsbD 2) ((peek s s.cpu.sp).getLsbD 1) ((peek s s.cpu.sp).getLsbD 0)) ∧
      RegsKept (.sp :: regsOfPair form.operand) s t ∧ MemoryKept s t

/-- EX DE,HL, EX AF,AF' and EXX swap exactly the registers they name, all 8 bits of F included (42_exchange_block.md R260, 42_exchange_block.md R261, 42_exchange_block.md R262, 10_state.md R33) -/
def Obligations.RegisterExchanges : Prop :=
  ∀ s : State,
    (∃ t, ({ instr := .exDEHL, cost := 4, operand := () } : Form Unit).completes s t ∧
      hostGet16 t .de = hostGet16 s .hl ∧ hostGet16 t .hl = hostGet16 s .de ∧
      FlagsKept s t ∧ RegsKept [.d, .e, .h, .l] s t ∧ MemoryKept s t) ∧
    (∃ t, ({ instr := .exAFAF, cost := 4, operand := () } : Form Unit).completes s t ∧
      t.cpu.a = s.cpu.altA ∧ t.cpu.f = s.cpu.altF ∧ t.cpu.altA = s.cpu.a ∧ t.cpu.altF = s.cpu.f ∧
      RegsKept [.a, .altA, .altF] s t ∧ MemoryKept s t) ∧
    ∃ t, ({ instr := .exx, cost := 4, operand := () } : Form Unit).completes s t ∧
      hostGet16 t .bc = hostGet16 s .altBC ∧ hostGet16 t .altBC = hostGet16 s .bc ∧
      hostGet16 t .de = hostGet16 s .altDE ∧ hostGet16 t .altDE = hostGet16 s .de ∧
      hostGet16 t .hl = hostGet16 s .altHL ∧ hostGet16 t .altHL = hostGet16 s .hl ∧
      FlagsKept s t ∧
      RegsKept [.b, .c, .d, .e, .h, .l, .altB, .altC, .altD, .altE, .altH, .altL] s t ∧ MemoryKept s t

/-- EX (SP),HL, EX (SP),IX and EX (SP),IY swap the register with the word on the stack; SP stays (42_exchange_block.md R263, 42_exchange_block.md R264, 42_exchange_block.md R265) -/
def Obligations.StackExchanges : Prop :=
  ∀ s : State, Memory.wf s.cfg s.mem = true →
    let sp := s.cpu.sp
    let bus := reads [sp, sp + 1#16] ++ writes [sp + 1#16, sp]
    let forms : List (Form HostReg16) :=
      [ { instr := .exAtSPHL, cost := 19, operand := .hl, accesses := bus },
        { instr := .exAtSPIX, cost := 23, operand := .ix, accesses := bus },
        { instr := .exAtSPIY, cost := 23, operand := .iy, accesses := bus } ]
    ∀ form ∈ forms, ∃ t, form.completes s t ∧
      hostGet16 t form.operand = peek s (sp + 1#16) ++ peek s sp ∧
      Stored [(sp + 1#16, hiByte (hostGet16 s form.operand)), (sp, loByte (hostGet16 s form.operand))] s t ∧
      FlagsKept s t ∧ RegsKept (regsOfPair form.operand) s t

/-- LDI, LDIR, LDD, LDDR move one byte, step HL and DE, count BC down, and repeat while BC is not 0 (42_exchange_block.md R266, 42_exchange_block.md R267, 42_exchange_block.md R268, 42_exchange_block.md R269, 60_exceptions.md R508) -/
def Obligations.BlockTransfers : Prop :=
  ∀ s : State, Memory.wf s.cfg s.mem = true →
    ∀ row ∈ ([(.ldi, 1#16, false), (.ldir, 1#16, true), (.ldd, 0xFFFF#16, false), (.lddr, 0xFFFF#16, true)] :
        List (Instr × Word × Bool)),
      let count := bc s - 1#16
      let again := row.2.2 && decide (count ≠ 0#16)
      let form : Form Unit :=
        { instr := row.1, cost := if again then 21 else 16, operand := (), accesses := [(.read, hl s), (.write, de s)] }
      ∃ t, form.completes s t ∧
        hl t = hl s + row.2.1 ∧ de t = de s + row.2.1 ∧ bc t = count ∧
        t.cpu.pc = (if again then s.pc0 else s.cpu.pc) ∧
        flagsAre t s.cpu.f.s s.cpu.f.z false (decide (count ≠ 0#16)) false s.cpu.f.c ∧
        RegsKept [.b, .c, .d, .e, .h, .l, .pc] s t ∧ Stored [(de s, peek s (hl s))] s t

/-- CPI, CPIR, CPD, CPDR compare A with one byte, step HL, count BC down, and repeat until a match or BC = 0 (42_exchange_block.md R270, 42_exchange_block.md R271, 42_exchange_block.md R272, 42_exchange_block.md R273, 43_arith8.md R281) -/
def Obligations.BlockSearches : Prop :=
  ∀ s : State,
    ∀ row ∈ ([(.cpi, 1#16, false), (.cpir, 1#16, true), (.cpd, 0xFFFF#16, false), (.cpdr, 0xFFFF#16, true)] :
        List (Instr × Word × Bool)),
      let v := peek s (hl s)
      let count := bc s - 1#16
      let again := row.2.2 && decide (count ≠ 0#16) && decide (s.cpu.a ≠ v)
      let form : Form Unit :=
        { instr := row.1, cost := if again then 21 else 16, operand := (), accesses := reads [hl s] }
      ∃ t, form.completes s t ∧
        hl t = hl s + row.2.1 ∧ bc t = count ∧
        t.cpu.pc = (if again then s.pc0 else s.cpu.pc) ∧
        flagsAre t (decide ((s.cpu.a - v).toInt < 0)) (decide (s.cpu.a = v))
          (decide (s.cpu.a.toNat % 16 < v.toNat % 16)) (decide (count ≠ 0#16)) true s.cpu.f.c ∧
        RegsKept [.b, .c, .h, .l, .pc] s t ∧ MemoryKept s t

/-- ADD and ADC put A + v + carry in A with the six flags of an 8-bit addition, in all ten forms (43_arith8.md R280, 43_arith8.md R284, 43_arith8.md R285, 43_arith8.md R286, 43_arith8.md R287, 43_arith8.md R288, 43_arith8.md R289, 43_arith8.md R290, 43_arith8.md R291, 43_arith8.md R292, 43_arith8.md R293) -/
def Obligations.AddToAccumulator : Prop :=
  ∀ (s : State) (src : Reg8) (n disp : Byte),
    let ix := s.cpu.ix + disp.signExtend 16
    let iy := s.cpu.iy + disp.signExtend 16
    let c := s.cpu.f.c
    let forms : List (Form (Byte × Bool)) :=
      [ { instr := .addAR src, cost := 4, operand := (r8 s src, false) },
        { instr := .addAN n, cost := 7, operand := (n, false) },
        { instr := .addAAtHL, cost := 7, operand := (peek s (hl s), false), accesses := reads [hl s] },
        { instr := .addAAtIX disp, cost := 19, operand := (peek s ix, false), accesses := reads [ix] },
        { instr := .addAAtIY disp, cost := 19, operand := (peek s iy, false), accesses := reads [iy] },
        { instr := .adcAR src, cost := 4, operand := (r8 s src, c) },
        { instr := .adcAN n, cost := 7, operand := (n, c) },
        { instr := .adcAAtHL, cost := 7, operand := (peek s (hl s), c), accesses := reads [hl s] },
        { instr := .adcAAtIX disp, cost := 19, operand := (peek s ix, c), accesses := reads [ix] },
        { instr := .adcAAtIY disp, cost := 19, operand := (peek s iy, c), accesses := reads [iy] } ]
    ∀ form ∈ forms,
      let a := s.cpu.a
      let v := form.operand.1
      let carry := form.operand.2.toNat
      let signed := a.toInt + v.toInt + carry
      ∃ t, form.completes s t ∧ t.cpu.a = a + v + BitVec.ofNat 8 carry ∧
        flagsAre t (decide (t.cpu.a.toInt < 0)) (decide (t.cpu.a = 0#8))
          (decide (15 < a.toNat % 16 + v.toNat % 16 + carry))
          (decide (signed < -128 ∨ 127 < signed)) false (decide (255 < a.toNat + v.toNat + carry)) ∧
        RegsKept [.a] s t ∧ MemoryKept s t

/-- SUB, SBC and CP compute A - v - carry with the six flags of an 8-bit subtraction; CP leaves A (43_arith8.md R281, 43_arith8.md R294, 43_arith8.md R295, 43_arith8.md R296, 43_arith8.md R299, 43_arith8.md R300, 43_arith8.md R301, 43_arith8.md R319, 43_arith8.md R320, 43_arith8.md R321, 43_arith8.md R297, 43_arith8.md R322) -/
def Obligations.SubtractFromAccumulator : Prop :=
  ∀ (s : State) (src : Reg8) (n disp : Byte),
    let ix := s.cpu.ix + disp.signExtend 16
    let iy := s.cpu.iy + disp.signExtend 16
    let c := s.cpu.f.c
    let forms : List (Form (Byte × Bool × Bool)) :=
      [ { instr := .subR src, cost := 4, operand := (r8 s src, false, true) },
        { instr := .subN n, cost := 7, operand := (n, false, true) },
        { instr := .subAtHL, cost := 7, operand := (peek s (hl s), false, true), accesses := reads [hl s] },
        { instr := .subAtIX disp, cost := 19, operand := (peek s ix, false, true), accesses := reads [ix] },
        { instr := .subAtIY disp, cost := 19, operand := (peek s iy, false, true), accesses := reads [iy] },
        { instr := .sbcAR src, cost := 4, operand := (r8 s src, c, true) },
        { instr := .sbcAN n, cost := 7, operand := (n, c, true) },
        { instr := .sbcAAtHL, cost := 7, operand := (peek s (hl s), c, true), accesses := reads [hl s] },
        { instr := .sbcAAtIX disp, cost := 19, operand := (peek s ix, c, true), accesses := reads [ix] },
        { instr := .sbcAAtIY disp, cost := 19, operand := (peek s iy, c, true), accesses := reads [iy] },
        { instr := .cpR src, cost := 4, operand := (r8 s src, false, false) },
        { instr := .cpN n, cost := 7, operand := (n, false, false) },
        { instr := .cpAtHL, cost := 7, operand := (peek s (hl s), false, false), accesses := reads [hl s] },
        { instr := .cpAtIX disp, cost := 19, operand := (peek s ix, false, false), accesses := reads [ix] },
        { instr := .cpAtIY disp, cost := 19, operand := (peek s iy, false, false), accesses := reads [iy] } ]
    ∀ form ∈ forms,
      let a := s.cpu.a
      let v := form.operand.1
      let borrow := form.operand.2.1.toNat
      let result := a - v - BitVec.ofNat 8 borrow
      let signed := a.toInt - v.toInt - borrow
      ∃ t, form.completes s t ∧ t.cpu.a = (if form.operand.2.2 then result else a) ∧
        flagsAre t (decide (result.toInt < 0)) (decide (result = 0#8))
          (decide (a.toNat % 16 < v.toNat % 16 + borrow))
          (decide (signed < -128 ∨ 127 < signed)) true (decide (a.toNat < v.toNat + borrow)) ∧
        RegsKept [.a] s t ∧ MemoryKept s t

/-- AND, OR and XOR combine A with the operand and set the flags, PV to even parity, in all fifteen forms (43_arith8.md R282, 43_arith8.md R304, 43_arith8.md R305, 43_arith8.md R306, 43_arith8.md R309, 43_arith8.md R310, 43_arith8.md R311, 43_arith8.md R314, 43_arith8.md R315, 43_arith8.md R316, 43_arith8.md R307, 43_arith8.md R312) -/
def Obligations.LogicOnAccumulator : Prop :=
  ∀ (s : State) (src : Reg8) (n disp : Byte),
    let ix := s.cpu.ix + disp.signExtend 16
    let iy := s.cpu.iy + disp.signExtend 16
    let a := s.cpu.a
    let forms : List (Form (Byte × Bool)) :=
      [ { instr := .andR src, cost := 4, operand := (a &&& r8 s src, true) },
        { instr := .andN n, cost := 7, operand := (a &&& n, true) },
        { instr := .andAtHL, cost := 7, operand := (a &&& peek s (hl s), true), accesses := reads [hl s] },
        { instr := .andAtIX disp, cost := 19, operand := (a &&& peek s ix, true), accesses := reads [ix] },
        { instr := .andAtIY disp, cost := 19, operand := (a &&& peek s iy, true), accesses := reads [iy] },
        { instr := .orR src, cost := 4, operand := (a ||| r8 s src, false) },
        { instr := .orN n, cost := 7, operand := (a ||| n, false) },
        { instr := .orAtHL, cost := 7, operand := (a ||| peek s (hl s), false), accesses := reads [hl s] },
        { instr := .orAtIX disp, cost := 19, operand := (a ||| peek s ix, false), accesses := reads [ix] },
        { instr := .orAtIY disp, cost := 19, operand := (a ||| peek s iy, false), accesses := reads [iy] },
        { instr := .xorR src, cost := 4, operand := (a ^^^ r8 s src, false) },
        { instr := .xorN n, cost := 7, operand := (a ^^^ n, false) },
        { instr := .xorAtHL, cost := 7, operand := (a ^^^ peek s (hl s), false), accesses := reads [hl s] },
        { instr := .xorAtIX disp, cost := 19, operand := (a ^^^ peek s ix, false), accesses := reads [ix] },
        { instr := .xorAtIY disp, cost := 19, operand := (a ^^^ peek s iy, false), accesses := reads [iy] } ]
    ∀ form ∈ forms, ∃ t, form.completes s t ∧ t.cpu.a = form.operand.1 ∧
      flagsAre t (decide (form.operand.1.toInt < 0)) (decide (form.operand.1 = 0#8)) form.operand.2
        (evenOnes form.operand.1) false false ∧
      RegsKept [.a] s t ∧ MemoryKept s t

/-- INC and DEC on a register and on a memory byte: the result, five flags, C kept, and nothing else changed (43_arith8.md R283, 43_arith8.md R324, 43_arith8.md R325, 43_arith8.md R326, 43_arith8.md R327, 43_arith8.md R328, 43_arith8.md R329, 43_arith8.md R330, 43_arith8.md R331) -/
def Obligations.IncrementDecrementByte : Prop :=
  ∀ (s : State) (dst : Reg8) (disp : Byte), Memory.wf s.cfg s.mem = true →
    let ix := s.cpu.ix + disp.signExtend 16
    let iy := s.cpu.iy + disp.signExtend 16
    let rmw := fun a => [(AccessKind.read, a), (AccessKind.write, a)]
    (∀ form ∈ ([ { instr := .incR dst, cost := 4, operand := true },
        { instr := .decR dst, cost := 4, operand := false } ] : List (Form Bool)),
      let v := r8 s dst
      ∃ t, form.completes s t ∧ r8 t dst = (if form.operand then v + 1#8 else v - 1#8) ∧
        flagsAre t (decide ((r8 t dst).toInt < 0)) (decide (r8 t dst = 0#8))
          (decide (v.toNat % 16 = if form.operand then 15 else 0))
          (decide (v = if form.operand then 0x7F#8 else 0x80#8)) (!form.operand) s.cpu.f.c ∧
        RegsKept [regOf8 dst] s t ∧ MemoryKept s t) ∧
    ∀ form ∈ ([ { instr := .incAtHL, cost := 11, operand := (true, hl s), accesses := rmw (hl s) },
        { instr := .incAtIX disp, cost := 23, operand := (true, ix), accesses := rmw ix },
        { instr := .incAtIY disp, cost := 23, operand := (true, iy), accesses := rmw iy },
        { instr := .decAtHL, cost := 11, operand := (false, hl s), accesses := rmw (hl s) },
        { instr := .decAtIX disp, cost := 23, operand := (false, ix), accesses := rmw ix },
        { instr := .decAtIY disp, cost := 23, operand := (false, iy), accesses := rmw iy } ] :
        List (Form (Bool × Word))),
      let v := peek s form.operand.2
      let result := if form.operand.1 then v + 1#8 else v - 1#8
      ∃ t, form.completes s t ∧ Stored [(form.operand.2, result)] s t ∧
        flagsAre t (decide (result.toInt < 0)) (decide (result = 0#8))
          (decide (v.toNat % 16 = if form.operand.1 then 15 else 0))
          (decide (v = if form.operand.1 then 0x7F#8 else 0x80#8)) (!form.operand.1) s.cpu.f.c ∧
        RegsKept [] s t

/-- DAA, CPL, NEG, CCF and SCF: the result in A, every flag, and nothing else changed (44_general_cpu.md R340, 44_general_cpu.md R341, 44_general_cpu.md R342, 44_general_cpu.md R343, 44_general_cpu.md R344) -/
def Obligations.AccumulatorAdjustments : Prop :=
  ∀ s : State,
    let a := s.cpu.a
    let f := s.cpu.f
    let form := fun (i : Instr) (cost : Nat) => ({ instr := i, cost := cost, operand := () } : Form Unit)
    (let low := a.toNat % 16
     let carry := f.c || decide (0x99 < a.toNat)
     let correction := (if f.h ∨ 9 < low then 6 else 0) + (if carry then 0x60 else 0)
     let result := BitVec.ofNat 8 (if f.n then a.toNat + 256 - correction else a.toNat + correction)
     ∃ t, (form .daa 4).completes s t ∧ t.cpu.a = result ∧
      flagsAre t (decide (result.toInt < 0)) (decide (result = 0#8))
        (decide (if f.n then f.h = true ∧ low < 6 else 9 < low)) (evenOnes result) f.n carry ∧
      RegsKept [.a] s t ∧ MemoryKept s t) ∧
    (∃ t, (form .cpl 4).completes s t ∧ t.cpu.a.toNat = 255 - a.toNat ∧
      flagsAre t f.s f.z true f.pv true f.c ∧ RegsKept [.a] s t ∧ MemoryKept s t) ∧
    (∃ t, (form .neg 8).completes s t ∧ t.cpu.a = 0#8 - a ∧
      flagsAre t (decide (t.cpu.a.toInt < 0)) (decide (t.cpu.a = 0#8)) (decide (a.toNat % 16 ≠ 0))
        (decide (a = 0x80#8)) true (decide (a ≠ 0#8)) ∧
      RegsKept [.a] s t ∧ MemoryKept s t) ∧
    (∃ t, (form .ccf 4).completes s t ∧ flagsAre t f.s f.z f.c f.pv false (!f.c) ∧
      RegsKept [] s t ∧ MemoryKept s t) ∧
    ∃ t, (form .scf 4).completes s t ∧ flagsAre t f.s f.z false f.pv false true ∧
      RegsKept [] s t ∧ MemoryKept s t

/-- DAA after ADD A,n or SUB n on packed decimal digits gives the decimal sum or difference and its carry (44_general_cpu.md R340, 43_arith8.md R285, 43_arith8.md R295) -/
def Obligations.DecimalArithmetic : Prop :=
  ∀ (s : State) (x y : Nat), x < 100 → y < 100 → s.cpu.a = bcd x →
    (∃ t u, exec (.addAN (bcd y)) s = .next t ∧ exec .daa t = .next u ∧
      u.cpu.a = bcd ((x + y) % 100) ∧ u.cpu.f.c = decide (100 ≤ x + y)) ∧
    ∃ t u, exec (.subN (bcd y)) s = .next t ∧ exec .daa t = .next u ∧
      u.cpu.a = bcd ((x + 100 - y) % 100) ∧ u.cpu.f.c = decide (x < y)

/-- NOP, HALT, DI, EI and IM 0, 1, 2 change exactly the hidden state, flip-flops or mode they name (44_general_cpu.md R345, 44_general_cpu.md R346, 44_general_cpu.md R347, 44_general_cpu.md R348, 44_general_cpu.md R349, 44_general_cpu.md R350, 44_general_cpu.md R351) -/
def Obligations.CpuControl : Prop :=
  ∀ s : State,
    let quiet := fun (i : Instr) (cost : Nat) (written : List Reg) (t : State) =>
      ({ instr := i, cost := cost, operand := () } : Form Unit).completes s t ∧
        FlagsKept s t ∧ RegsKept written s t ∧ MemoryKept s t
    (∃ t, quiet .nop 4 [] t) ∧
    (∃ t, quiet .halt 4 [.halted, .pc] t ∧ t.cpu.halted = true ∧ t.cpu.pc = s.pc0) ∧
    (∃ t, quiet .di 4 [.iff1, .iff2] t ∧ t.cpu.iff1 = false ∧ t.cpu.iff2 = false) ∧
    (∃ t, quiet .ei 4 [.iff1, .iff2, .eiShadow] t ∧ t.cpu.iff1 = true ∧ t.cpu.iff2 = true ∧
      t.cpu.eiShadow = true) ∧
    (∃ t, quiet .im0 8 [.im] t ∧ t.cpu.im = .im0) ∧
    (∃ t, quiet .im1 8 [.im] t ∧ t.cpu.im = .im1) ∧
    ∃ t, quiet .im2 8 [.im] t ∧ t.cpu.im = .im2

/-- ADD HL/IX/IY, ADC HL and SBC HL: the 16-bit result and the flags of the rule, and nothing else changed (45_arith16.md R360, 45_arith16.md R361, 45_arith16.md R362, 45_arith16.md R363, 45_arith16.md R364) -/
def Obligations.WordArithmetic : Prop :=
  ∀ (s : State) (ss : Reg16) (pp : Reg16IX) (rr : Reg16IY),
    let f := s.cpu.f
    let c := f.c.toNat
    (∀ form ∈ ([ { instr := .addHLSS ss, cost := 11, operand := (.hl, hostGet16 s (pairOf16 ss)) },
        { instr := .addIXPP pp, cost := 15, operand := (.ix, r16IX s pp) },
        { instr := .addIYRR rr, cost := 15, operand := (.iy, r16IY s rr) } ] : List (Form (HostReg16 × Word))),
      let a := hostGet16 s form.operand.1
      let b := form.operand.2
      ∃ t, form.completes s t ∧ hostGet16 t form.operand.1 = a + b ∧
        flagsAre t f.s f.z (decide (4095 < a.toNat % 4096 + b.toNat % 4096)) f.pv false
          (decide (65535 < a.toNat + b.toNat)) ∧
        RegsKept (regsOfPair form.operand.1) s t ∧ MemoryKept s t) ∧
    (let a := hl s
     let b := hostGet16 s (pairOf16 ss)
     let signed := a.toInt + b.toInt + c
     ∃ t, ({ instr := .adcHLSS ss, cost := 15, operand := () } : Form Unit).completes s t ∧
      hl t = a + b + BitVec.ofNat 16 c ∧
      flagsAre t (decide ((hl t).toInt < 0)) (decide (hl t = 0#16))
        (decide (4095 < a.toNat % 4096 + b.toNat % 4096 + c))
        (decide (signed < -32768 ∨ 32767 < signed)) false (decide (65535 < a.toNat + b.toNat + c)) ∧
      RegsKept [.h, .l] s t ∧ MemoryKept s t) ∧
    (let a := hl s
     let b := hostGet16 s (pairOf16 ss)
     let signed := a.toInt - b.toInt - c
     ∃ t, ({ instr := .sbcHLSS ss, cost := 15, operand := () } : Form Unit).completes s t ∧
      hl t = a - b - BitVec.ofNat 16 c ∧
      flagsAre t (decide ((hl t).toInt < 0)) (decide (hl t = 0#16))
        (decide (a.toNat % 4096 < b.toNat % 4096 + c))
        (decide (signed < -32768 ∨ 32767 < signed)) true (decide (a.toNat < b.toNat + c)) ∧
      RegsKept [.h, .l] s t ∧ MemoryKept s t)

/-- INC and DEC on BC, DE, HL, SP, IX, IY step the register mod 65536 and change no flag (45_arith16.md R365, 45_arith16.md R366, 45_arith16.md R367, 45_arith16.md R368, 45_arith16.md R369, 45_arith16.md R370) -/
def Obligations.IncrementDecrementWord : Prop :=
  ∀ (s : State) (ss : Reg16),
    let forms : List (Form (HostReg16 × Word)) :=
      [ { instr := .incSS ss, cost := 6, operand := (pairOf16 ss, 1#16) },
        { instr := .incIX, cost := 10, operand := (.ix, 1#16) },
        { instr := .incIY, cost := 10, operand := (.iy, 1#16) },
        { instr := .decSS ss, cost := 6, operand := (pairOf16 ss, 0xFFFF#16) },
        { instr := .decIX, cost := 10, operand := (.ix, 0xFFFF#16) },
        { instr := .decIY, cost := 10, operand := (.iy, 0xFFFF#16) } ]
    ∀ form ∈ forms, ∃ t, form.completes s t ∧
      hostGet16 t form.operand.1 = hostGet16 s form.operand.1 + form.operand.2 ∧
      FlagsKept s t ∧ RegsKept (regsOfPair form.operand.1) s t ∧ MemoryKept s t

/-- RLCA, RLA, RRCA, RRA rotate A, put the bit moved out in C, clear H and N, and keep S, Z, PV (46_rotate_shift.md R380, 46_rotate_shift.md R382, 46_rotate_shift.md R383, 46_rotate_shift.md R384, 46_rotate_shift.md R385) -/
def Obligations.AccumulatorRotates : Prop :=
  ∀ s : State,
    let a := s.cpu.a
    let f := s.cpu.f
    let bit := fun (b : Bool) => BitVec.ofNat 8 b.toNat
    let forms : List (Form (Byte × Bool)) :=
      [ { instr := .rlca, cost := 4, operand := (a.rotateLeft 1, a.getLsbD 7) },
        { instr := .rla, cost := 4, operand := ((a <<< 1) ||| bit f.c, a.getLsbD 7) },
        { instr := .rrca, cost := 4, operand := (a.rotateRight 1, a.getLsbD 0) },
        { instr := .rra, cost := 4, operand := ((a >>> 1) ||| (bit f.c <<< 7), a.getLsbD 0) } ]
    ∀ form ∈ forms, ∃ t, form.completes s t ∧ t.cpu.a = form.operand.1 ∧
      flagsAre t f.s f.z false f.pv false form.operand.2 ∧ RegsKept [.a] s t ∧ MemoryKept s t

/-- RLC, RL, RRC, RR, SLA, SRA, SRL on a register and on memory: result, six flags, and nothing else changed (46_rotate_shift.md R381, 46_rotate_shift.md R386, 46_rotate_shift.md R387, 46_rotate_shift.md R390, 46_rotate_shift.md R391, 46_rotate_shift.md R394, 46_rotate_shift.md R398, 46_rotate_shift.md R402, 46_rotate_shift.md R406, 46_rotate_shift.md R410, 46_rotate_shift.md R388, 46_rotate_shift.md R411) -/
def Obligations.RotatesAndShifts : Prop :=
  ∀ (s : State) (dst : Reg8) (disp : Byte), Memory.wf s.cfg s.mem = true →
    let bit := fun (b : Bool) => BitVec.ofNat 8 b.toNat
    let c := s.cpu.f.c
    let ix := s.cpu.ix + disp.signExtend 16
    let iy := s.cpu.iy + disp.signExtend 16
    let rmw := fun a => [(AccessKind.read, a), (AccessKind.write, a)]
    ∀ row ∈ ([ ((.rlcR dst, .rlcAtHL, .rlcAtIX disp, .rlcAtIY disp), fun v => (v.rotateLeft 1, v.getLsbD 7)),
        ((.rlR dst, .rlAtHL, .rlAtIX disp, .rlAtIY disp), fun v => ((v <<< 1) ||| bit c, v.getLsbD 7)),
        ((.rrcR dst, .rrcAtHL, .rrcAtIX disp, .rrcAtIY disp), fun v => (v.rotateRight 1, v.getLsbD 0)),
        ((.rrR dst, .rrAtHL, .rrAtIX disp, .rrAtIY disp), fun v => ((v >>> 1) ||| (bit c <<< 7), v.getLsbD 0)),
        ((.slaR dst, .slaAtHL, .slaAtIX disp, .slaAtIY disp), fun v => (v <<< 1, v.getLsbD 7)),
        ((.sraR dst, .sraAtHL, .sraAtIX disp, .sraAtIY disp), fun v => (v.sshiftRight 1, v.getLsbD 0)),
        ((.srlR dst, .srlAtHL, .srlAtIX disp, .srlAtIY disp), fun v => (v >>> 1, v.getLsbD 0)) ] :
        List ((Instr × Instr × Instr × Instr) × (Byte → Byte × Bool))),
      let flagged := fun (t : State) (r : Byte × Bool) =>
        flagsAre t (decide (r.1.toInt < 0)) (decide (r.1 = 0#8)) false (evenOnes r.1) false r.2
      (∃ t, ({ instr := row.1.1, cost := 8, operand := () } : Form Unit).completes s t ∧
        r8 t dst = (row.2 (r8 s dst)).1 ∧ flagged t (row.2 (r8 s dst)) ∧
        RegsKept [regOf8 dst] s t ∧ MemoryKept s t) ∧
      ∀ form ∈ ([ { instr := row.1.2.1, cost := 15, operand := hl s, accesses := rmw (hl s) },
          { instr := row.1.2.2.1, cost := 23, operand := ix, accesses := rmw ix },
          { instr := row.1.2.2.2, cost := 23, operand := iy, accesses := rmw iy } ] : List (Form Word)),
        ∃ t, form.completes s t ∧ Stored [(form.operand, (row.2 (peek s form.operand)).1)] s t ∧
          flagged t (row.2 (peek s form.operand)) ∧ RegsKept [] s t

/-- RLD and RRD rotate three decimal digits through A and the byte at HL, with S, Z, parity of A and C kept (46_rotate_shift.md R414, 46_rotate_shift.md R415) -/
def Obligations.DigitRotates : Prop :=
  ∀ s : State, Memory.wf s.cfg s.mem = true →
    let a := s.cpu.a.toNat
    let v := (peek s (hl s)).toNat
    let byte := fun (high low : Nat) => BitVec.ofNat 8 (high * 16 + low)
    ∀ row ∈ ([ (.rld, byte (a / 16) (v / 16), byte (v % 16) (a % 16)),
        (.rrd, byte (a / 16) (v % 16), byte (a % 16) (v / 16)) ] : List (Instr × Byte × Byte)),
      let form : Form Unit :=
        { instr := row.1, cost := 18, operand := (), accesses := [(.read, hl s), (.write, hl s)] }
      ∃ t, form.completes s t ∧ t.cpu.a = row.2.1 ∧ Stored [(hl s, row.2.2)] s t ∧
        flagsAre t (decide (row.2.1.toInt < 0)) (decide (row.2.1 = 0#8)) false (evenOnes row.2.1) false s.cpu.f.c ∧
        RegsKept [.a] s t

/-- BIT sets Z to the complement of the bit; SET and RES write that bit alone and no flag, in all twelve forms (47_bit.md R420, 47_bit.md R421, 47_bit.md R422, 47_bit.md R423, 47_bit.md R424, 47_bit.md R425, 47_bit.md R426, 47_bit.md R427, 47_bit.md R428, 47_bit.md R429, 47_bit.md R430, 47_bit.md R431) -/
def Obligations.BitTestSetReset : Prop :=
  ∀ (s : State) (b : Nat) (reg : Reg8) (disp : Byte), b < 8 → Memory.wf s.cfg s.mem = true →
    let ix := s.cpu.ix + disp.signExtend 16
    let iy := s.cpu.iy + disp.signExtend 16
    let rmw := fun a => [(AccessKind.read, a), (AccessKind.write, a)]
    let changed := fun (v w : Byte) (on : Bool) =>
      w.getLsbD b = on ∧ ∀ k, k < 8 → k ≠ b → w.getLsbD k = v.getLsbD k
    (∀ form ∈ ([ { instr := .bitBR b reg, cost := 8, operand := r8 s reg },
        { instr := .bitBAtHL b, cost := 12, operand := peek s (hl s), accesses := reads [hl s] },
        { instr := .bitBAtIX b disp, cost := 20, operand := peek s ix, accesses := reads [ix] },
        { instr := .bitBAtIY b disp, cost := 20, operand := peek s iy, accesses := reads [iy] } ] :
        List (Form Byte)),
      ∃ t, form.completes s t ∧ t.cpu.f.z = !form.operand.getLsbD b ∧ t.cpu.f.h = true ∧ t.cpu.f.n = false ∧
        t.cpu.f.c = s.cpu.f.c ∧ RegsKept [] s t ∧ MemoryKept s t) ∧
    (∀ form ∈ ([ { instr := .setBR b reg, cost := 8, operand := true },
        { instr := .resBR b reg, cost := 8, operand := false } ] : List (Form Bool)),
      ∃ t, form.completes s t ∧ changed (r8 s reg) (r8 t reg) form.operand ∧
        FlagsKept s t ∧ RegsKept [regOf8 reg] s t ∧ MemoryKept s t) ∧
    ∀ form ∈ ([ { instr := .setBAtHL b, cost := 15, operand := (true, hl s), accesses := rmw (hl s) },
        { instr := .setBAtIX b disp, cost := 23, operand := (true, ix), accesses := rmw ix },
        { instr := .setBAtIY b disp, cost := 23, operand := (true, iy), accesses := rmw iy },
        { instr := .resBAtHL b, cost := 15, operand := (false, hl s), accesses := rmw (hl s) },
        { instr := .resBAtIX b disp, cost := 23, operand := (false, ix), accesses := rmw ix },
        { instr := .resBAtIY b disp, cost := 23, operand := (false, iy), accesses := rmw iy } ] :
        List (Form (Bool × Word))),
      ∃ t v, form.completes s t ∧ changed (peek s form.operand.2) v form.operand.1 ∧
        Stored [(form.operand.2, v)] s t ∧ FlagsKept s t ∧ RegsKept [] s t

/-- JP, JP cc, JR, JR cc, JP (HL), JP (IX), JP (IY) and DJNZ: the target, the condition, the T-states, and nothing else changed (48_jump_call.md R440, 48_jump_call.md R441, 48_jump_call.md R442, 48_jump_call.md R443, 48_jump_call.md R444, 48_jump_call.md R445, 48_jump_call.md R446, 48_jump_call.md R447, 48_jump_call.md R448, 48_jump_call.md R449, 48_jump_call.md R450, 10_state.md R38) -/
def Obligations.Jumps : Prop :=
  ∀ (s : State) (nn : Word) (e : Byte),
    let f := s.cpu.f
    let next := s.cpu.pc
    let rel := s.pc0 + 2#16 + e.signExtend 16
    let conditions : List (Cond × Bool) :=
      [(.nz, !f.z), (.z, f.z), (.nc, !f.c), (.c, f.c), (.po, !f.pv), (.pe, f.pv), (.p, !f.s), (.m, f.s)]
    let forms : List (Form Word) :=
      [ { instr := .jpNN nn, cost := 10, operand := nn },
        { instr := .jr e, cost := 12, operand := rel },
        { instr := .jrC e, cost := if f.c then 12 else 7, operand := if f.c then rel else next },
        { instr := .jrNC e, cost := if f.c then 7 else 12, operand := if f.c then next else rel },
        { instr := .jrZ e, cost := if f.z then 12 else 7, operand := if f.z then rel else next },
        { instr := .jrNZ e, cost := if f.z then 7 else 12, operand := if f.z then next else rel },
        { instr := .jpHL, cost := 4, operand := hl s },
        { instr := .jpIX, cost := 8, operand := s.cpu.ix },
        { instr := .jpIY, cost := 8, operand := s.cpu.iy } ] ++
      conditions.map (fun row => { instr := .jpCCNN row.1 nn, cost := 10, operand := if row.2 then nn else next })
    (∀ form ∈ forms, ∃ t, form.completes s t ∧ t.cpu.pc = form.operand ∧
      FlagsKept s t ∧ RegsKept [.pc] s t ∧ MemoryKept s t) ∧
    (let left := s.cpu.b - 1#8
     ∃ t, ({ instr := .djnz e, cost := if left = 0#8 then 8 else 13, operand := () } : Form Unit).completes s t ∧
      t.cpu.b = left ∧ t.cpu.pc = (if left = 0#8 then next else rel) ∧
      FlagsKept s t ∧ RegsKept [.b, .pc] s t ∧ MemoryKept s t)

/-- CALL, a taken CALL cc and RST push PC, high byte first, and go to the target; an untaken CALL cc pushes nothing (48_jump_call.md R451, 48_jump_call.md R452, 48_jump_call.md R457) -/
def Obligations.Calls : Prop :=
  ∀ (s : State) (nn target : Word) (cc : Cond), Memory.wf s.cfg s.mem = true →
    let bus := writes [s.cpu.sp - 1#16, s.cpu.sp - 2#16]
    (∀ form ∈ ([ { instr := .callNN nn, cost := 17, operand := nn, accesses := bus },
        { instr := .rst target, cost := 11, operand := target, accesses := bus } ] ++
        (if condHolds s cc then [{ instr := .callCCNN cc nn, cost := 17, operand := nn, accesses := bus }] else []) :
        List (Form Word)),
      ∃ t, form.completes s t ∧ t.cpu.pc = form.operand ∧ t.cpu.sp = s.cpu.sp - 2#16 ∧
        Stored [(s.cpu.sp - 1#16, hiByte s.cpu.pc), (s.cpu.sp - 2#16, loByte s.cpu.pc)] s t ∧
        FlagsKept s t ∧ RegsKept [.pc, .sp] s t) ∧
    (condHolds s cc = false →
      ∃ t, ({ instr := .callCCNN cc nn, cost := 10, operand := () } : Form Unit).completes s t ∧
        FlagsKept s t ∧ RegsKept [] s t ∧ MemoryKept s t)

/-- RET, a taken RET cc, RETI and RETN pop PC; RETN alone copies IFF2 to IFF1; an untaken RET cc pops nothing (48_jump_call.md R453, 48_jump_call.md R454, 48_jump_call.md R455, 48_jump_call.md R456, 60_exceptions.md R524) -/
def Obligations.Returns : Prop :=
  ∀ (s : State) (cc : Cond),
    let bus := reads [s.cpu.sp, s.cpu.sp + 1#16]
    (∀ form ∈ ([ { instr := .ret, cost := 10, operand := s.cpu.iff1, accesses := bus },
        { instr := .reti, cost := 14, operand := s.cpu.iff1, accesses := bus },
        { instr := .retn, cost := 14, operand := s.cpu.iff2, accesses := bus } ] ++
        (if condHolds s cc then
          [{ instr := .retCC cc, cost := 11, operand := s.cpu.iff1, accesses := bus }] else []) :
        List (Form Bool)),
      ∃ t, form.completes s t ∧ t.cpu.pc = peek s (s.cpu.sp + 1#16) ++ peek s s.cpu.sp ∧
        t.cpu.sp = s.cpu.sp + 2#16 ∧ t.cpu.iff1 = form.operand ∧
        FlagsKept s t ∧ RegsKept [.pc, .sp, .iff1] s t ∧ MemoryKept s t) ∧
    (condHolds s cc = false →
      ∃ t, ({ instr := .retCC cc, cost := 5, operand := () } : Form Unit).completes s t ∧
        FlagsKept s t ∧ RegsKept [] s t ∧ MemoryKept s t)

/-- IN A,(n) and IN r,(C) read the port A:n or BC once, into the register; only IN r,(C) sets flags (49_io.md R470, 49_io.md R471, 20_memory.md R111) -/
def Obligations.Inputs : Prop :=
  ∀ (s : State) (n : Byte) (dst : Reg8),
    (let p := portRead (s.cpu.a ++ n) s
     ∃ t, exec (.inAN n) s = .next t ∧ t.tIns = 11 ∧ t.cpu.a = p.1 ∧ PortEffect p.2 s t ∧
      Accessed [] s t ∧ FlagsKept s t ∧ RegsKept [.a] s t ∧ MemoryKept s t) ∧
    (let p := portRead (s.cpu.b ++ s.cpu.c) s
     ∃ t, exec (.inRC dst) s = .next t ∧ t.tIns = 12 ∧ r8 t dst = p.1 ∧ PortEffect p.2 s t ∧
      Accessed [] s t ∧
      flagsAre t (decide (p.1.toInt < 0)) (decide (p.1 = 0#8)) false (evenOnes p.1) false s.cpu.f.c ∧
      RegsKept [regOf8 dst] s t ∧ MemoryKept s t)

/-- OUT (n),A and OUT (C),r write the register to port A:n or BC once and complete whatever the handlers do (49_io.md R476, 49_io.md R477, 20_memory.md R101, 20_memory.md R111, 60_exceptions.md R503) -/
def Obligations.Outputs : Prop :=
  ∀ (s : State) (n : Byte) (src : Reg8),
    ∀ row ∈ ([ (.outNA n, 11, s.cpu.a ++ n, s.cpu.a), (.outCR src, 12, s.cpu.b ++ s.cpu.c, r8 s src) ] :
        List (Instr × Nat × Word × Byte)),
      ∃ t, exec row.1 s = .next t ∧ t.tIns = row.2.1 ∧ PortEffect (portWrite row.2.2.1 row.2.2.2 s) s t ∧
        Accessed [] s t ∧ FlagsKept s t ∧ RegsKept [] s t ∧ (∀ key, cell t key = cell s key) ∧
        (t.slots = s.slots → ∀ a, peek t a = peek s a)

/-- INI, INIR, IND, INDR store one port byte at HL, step HL, count B down, and repeat while B is not 0 (49_io.md R472, 49_io.md R473, 49_io.md R474, 49_io.md R475, 20_memory.md R111) -/
def Obligations.BlockInputs : Prop :=
  ∀ s : State, Memory.wf s.cfg s.mem = true →
    ∀ row ∈ ([(.ini, 1#16, false), (.inir, 1#16, true), (.ind, 0xFFFF#16, false), (.indr, 0xFFFF#16, true)] :
        List (Instr × Word × Bool)),
      let p := portRead (s.cpu.b ++ s.cpu.c) s
      let left := s.cpu.b - 1#8
      let again := row.2.2 && decide (left ≠ 0#8)
      ∃ t, exec row.1 s = .next t ∧ t.tIns = (if again then 21 else 16) ∧ PortEffect p.2 s t ∧
        t.cpu.b = left ∧ hl t = hl s + row.2.1 ∧ t.cpu.pc = (if again then s.pc0 else s.cpu.pc) ∧
        t.cpu.f.z = decide (left = 0#8) ∧ t.cpu.f.n = true ∧ t.cpu.f.c = s.cpu.f.c ∧
        Accessed (writes [hl s]) s t ∧ Stored [(hl s, p.1)] s t ∧ RegsKept [.b, .h, .l, .pc] s t

/-- OUTI, OTIR, OUTD, OTDR write the byte at HL to port BC with B after its decrement, and repeat while B is not 0 (49_io.md R478, 49_io.md R479, 49_io.md R480, 49_io.md R481, 20_memory.md R111) -/
def Obligations.BlockOutputs : Prop :=
  ∀ s : State,
    ∀ row ∈ ([(.outi, 1#16, false), (.otir, 1#16, true), (.outd, 0xFFFF#16, false), (.otdr, 0xFFFF#16, true)] :
        List (Instr × Word × Bool)),
      let left := s.cpu.b - 1#8
      let w := portWrite (left ++ s.cpu.c) (peek s (hl s)) s
      let again := row.2.2 && decide (left ≠ 0#8)
      ∃ t, exec row.1 s = .next t ∧ t.tIns = (if again then 21 else 16) ∧ PortEffect w s t ∧
        t.cpu.b = left ∧ hl t = hl s + row.2.1 ∧ t.cpu.pc = (if again then s.pc0 else s.cpu.pc) ∧
        t.cpu.f.z = decide (left = 0#8) ∧ t.cpu.f.n = true ∧ t.cpu.f.c = s.cpu.f.c ∧
        Accessed (reads [hl s]) s t ∧ RegsKept [.b, .h, .l, .pc] s t ∧
        (∀ key, cell t key = cell s key) ∧ (t.slots = s.slots → ∀ a, peek t a = peek s a)

/-- A port read answers its specific handler, else the generic ones combined by policy over the idle value. That a handler is one of the tags `constant`, `ula` and `device` is the model's choice (log 5), and so are what a ULA handler answers and how it attaches (logs 31, 32): the clauses on single tags speak of that form. (20_memory.md R112, 20_memory.md R113, 20_memory.md R114, 20_memory.md R110, 60_exceptions.md R546) -/
def Obligations.PortReads : Prop :=
  ∀ (s : State) (port : Word),
    let combine := fun (a b : Byte) => match s.cfg.portPolicy with | .and => a &&& b | .or => a ||| b
    let idle : Byte := match s.cfg.portPolicy with | .and => 0xFF#8 | .or => 0x00#8
    let events := s.cfg.portEventsOf .read port none s.ula.syncReq s.ula.nmiOn
    (portRead port s =
      match (s.cfg.readSpecific.filter (fun entry => entry.1 == port)).head? with
      | some entry => runRead port s entry.2
      | none =>
        s.cfg.readGeneric.foldl (fun r h => (combine r.1 (runRead port r.2 h).1, (runRead port r.2 h).2)) (idle, s)) ∧
    (∀ v, runRead port s (.constant v) = (v, s)) ∧
    (∀ drives, (runRead port s (.ula drives)).2 =
      { s with ula := { s.ula with syncReq := events.1, nmiOn := events.2 } }) ∧
    (runRead port s (.ula false)).1 = idle ∧
    (∀ id, ∃ periph, (runRead port s (.device id)).2 = { s with periph := periph }) ∧
    (port ∉ s.cfg.readSpecific.map Prod.fst → s.cfg.readGeneric = [] → portRead port s = (idle, s)) ∧
    (port ∉ s.cfg.readSpecific.map Prod.fst →
      s.cfg.readGeneric = [.constant 0xA5#8, .constant 0xF0#8] →
      portRead port s = ((match s.cfg.portPolicy with | .and => 0xA0#8 | .or => 0xF5#8), s)) ∧
    (let t := (portRead port s).2
     { t with periph := s.periph, ula := { t.ula with syncReq := s.ula.syncReq, nmiOn := s.ula.nmiOn } } = s)

/-- A port write runs the specific handler first, then every generic handler in list order; with none it has no effect. That a handler is one of the tags `ula`, `record`, `device` and `bankRule` is the model's choice (logs 5, 32). (20_memory.md R115, 20_memory.md R117, 60_exceptions.md R503, 20_memory.md R110, 60_exceptions.md R546) -/
def Obligations.PortWrites : Prop :=
  ∀ (s : State) (port : Word) (v : Byte),
    let specific := (s.cfg.writeSpecific.filter (fun entry => entry.1 == port)).head?.toList.map Prod.snd
    let t := portWrite port v s
    t = (specific ++ s.cfg.writeGeneric).foldl (fun u h => runWrite port v u h) s ∧
    (specific = [] → s.cfg.writeGeneric = [] → t = s) ∧
    t.cpu = s.cpu ∧ t.mem = s.mem ∧ t.watch = s.watch ∧ t.activity = s.activity ∧
    (∀ f, s.failure = some f → t.failure = some f) ∧
    (let events := s.cfg.portEventsOf .write port (some v) s.ula.syncReq s.ula.nmiOn
     runWrite port v s .ula = { s with ula := { s.ula with syncReq := events.1, nmiOn := events.2 } }) ∧
    runWrite port v s .record = { s with
      periph := s.periph ++ [(port >>> 8).setWidth 8, port.setWidth 8, v] } ∧
    ∀ id, (∃ periph, runWrite port v s (.device id) = { s with periph := periph }) ∨
      ∃ message, runWrite port v s (.device id) =
        { s with failure := some (s.failure.getD (.handlerError port message)) }

/-- setSlot on an allowed pair maps that bank into that slot and nothing else; on any other pair it is rejected (20_memory.md R99) -/
def Obligations.SetSlot : Prop :=
  ∀ (s : State) (slot b : Nat), Inv s →
    (∀ place bank, s.cfg.slots[slot]? = some place → s.cfg.banks[b]? = some bank → slot ∈ bank.slots →
      ∃ t, setSlot slot b s = .ok t ∧ t = { s with slots := s.slots.set slot b } ∧
        ∀ a : Word, place.base ≤ a.toNat → a.toNat < place.base + place.size →
          (read8 a t).1 =
            if bank.kind = .unmapped then bank.fill else cell s (b * 65536 + (a.toNat - place.base))) ∧
    ((∀ bank, s.cfg.banks[b]? = some bank → slot < s.cfg.slots.length → slot ∉ bank.slots) →
      setSlot slot b s = .error (slot, b))

/-- A bank-switch rule applies all its assignments or none; on rejection, error or timeout only the failure is recorded (20_memory.md R100, 20_memory.md R101, 60_exceptions.md R503) -/
def Obligations.BankRuleAllOrNothing : Prop :=
  ∀ (s : State) (port : Word) (v : Byte) (rule : BankRule), s.cfg.bankRule = some rule →
    let t := applyBankRule port v s
    let allowed := fun (pair : Nat × Nat) =>
      ∃ bank, pair.1 < s.cfg.slots.length ∧ s.cfg.banks[pair.2]? = some bank ∧ pair.1 ∈ bank.slots
    let failed := fun (f : Failure) => t = { s with failure := some (s.failure.getD f) }
    (port ∉ rule.ports → t = s) ∧
    (port ∈ rule.ports →
      match evalRule rule port v s.slots s.script with
      | .ok assignments script =>
        ((∀ pair ∈ assignments, allowed pair) →
          t = { s with
            slots := assignments.foldl (fun table pair => table.set pair.1 pair.2) s.slots, script := script }) ∧
        (∀ pair ∈ assignments, ¬ allowed pair →
          ∃ pair' ∈ assignments, ¬ allowed pair' ∧ failed (.bankSwitchRejected pair'.1 pair'.2 port))
      | .err message => failed (.bankRuleError port message)
      | .timeout => failed (.bankRuleTimeout port))

/-- Overlapping watchpoints count independently: removing the read one leaves the write one at the shared byte (20_memory.md R98) -/
def Obligations.WatchpointOverlap : Prop :=
  ∀ (s : State) (a a0 a1 : Word) (len0 len1 : Nat), Inv s →
    (a - a0).toNat < len0 → len0 ≤ 65536 → (a - a1).toNat < len1 → len1 ≤ 65536 →
    let t := removeWatchpoint a0 len0 true false
      (setWatchpoint a1 len1 false true (setWatchpoint a0 len0 true false s))
    t.watch.count .read a = s.watch.count .read a ∧
    t.watch.count .write a = s.watch.count .write a + 1 ∧
    (∀ v, (write8 a v t).watch.hit = some (t.watch.hit.getD (a, .write)))

/-- An accepted maskable interrupt saves PC on the stack, clears IFF1 and IFF2, steps R, and goes to the vector of its mode (60_exceptions.md R520, 60_exceptions.md R521, 60_exceptions.md R522, 10_state.md R43) -/
def Obligations.MaskableEntry : Prop :=
  ∀ (s : State) (bus : Byte), Memory.wf s.cfg s.mem = true →
    s.cpu.iff1 = true → s.cpu.eiShadow = false → (s.cpu.im = .im0 → bus &&& 0xC7#8 = 0xC7#8) →
    let back := if s.cpu.halted then s.cpu.pc + 1#16 else s.cpu.pc
    let pushes := [(s.cpu.sp - 1#16, hiByte back), (s.cpu.sp - 2#16, loByte back)]
    let entry : Word := s.cpu.i ++ bus
    let r := generateInterrupt false bus s
    r.1 = (match s.cpu.im with | .im0 => 13 | .im1 => 13 | .im2 => 19) ∧
    r.2.cpu.pc = (match s.cpu.im with
      | .im0 => (bus &&& 0x38#8).setWidth 16
      | .im1 => 0x0038#16
      | .im2 => readAfter s pushes (entry + 1#16) ++ readAfter s pushes entry) ∧
    r.2.cpu.sp = s.cpu.sp - 2#16 ∧ r.2.cpu.r = (s.cpu.r &&& 0x80#8) ||| ((s.cpu.r + 1#8) &&& 0x7F#8) ∧
    r.2.cpu.iff1 = false ∧ r.2.cpu.iff2 = false ∧ r.2.cpu.halted = false ∧
    Stored pushes s r.2 ∧
    Accessed (writes [s.cpu.sp - 1#16, s.cpu.sp - 2#16] ++
      (if s.cpu.im = .im2 then reads [entry, entry + 1#16] else [])) s r.2 ∧
    FlagsKept s r.2 ∧ RegsKept [.pc, .sp, .r, .iff1, .iff2, .halted] s r.2 ∧ OthersKept s r.2

/-- A maskable request is dropped with IFF1 = 0, in the EI shadow, and after EI; in mode 0 a bus byte that is no restart is a fault (60_exceptions.md R502, 60_exceptions.md R514, 60_exceptions.md R521, 70_reset_and_hazards.md R611) -/
def Obligations.MaskableRefused : Prop :=
  ∀ (s : State) (bus : Byte),
    (s.cpu.iff1 = false ∨ s.cpu.eiShadow = true → generateInterrupt false bus s = (0, s)) ∧
    (∃ t, exec .ei s = .next t ∧ generateInterrupt false bus t = (0, t)) ∧
    (s.cpu.iff1 = true → s.cpu.eiShadow = false → s.cpu.im = .im0 → bus &&& 0xC7#8 ≠ 0xC7#8 →
      generateInterrupt false bus s = (0, { s with fault := some (.im0Unsupported bus) }))

/-- A non-maskable interrupt is always accepted, clears IFF1 alone and goes to 0x0066; RETN from there restores PC, SP and IFF1 (60_exceptions.md R520, 60_exceptions.md R521, 60_exceptions.md R522, 60_exceptions.md R524, 48_jump_call.md R456) -/
def Obligations.NmiEntryAndReturn : Prop :=
  ∀ (s : State) (bus : Byte), Memory.wf s.cfg s.mem = true →
    let back := if s.cpu.halted then s.cpu.pc + 1#16 else s.cpu.pc
    let sp := s.cpu.sp
    let r := generateInterrupt true bus s
    r.1 = 11 ∧ r.2.cpu.pc = 0x0066#16 ∧ r.2.cpu.sp = sp - 2#16 ∧
    r.2.cpu.r = (s.cpu.r &&& 0x80#8) ||| ((s.cpu.r + 1#8) &&& 0x7F#8) ∧
    r.2.cpu.iff1 = false ∧ r.2.cpu.halted = false ∧
    Stored [(sp - 1#16, hiByte back), (sp - 2#16, loByte back)] s r.2 ∧
    Accessed (writes [sp - 1#16, sp - 2#16]) s r.2 ∧
    FlagsKept s r.2 ∧ RegsKept [.pc, .sp, .r, .iff1, .halted] s r.2 ∧ OthersKept s r.2 ∧
    (writable s (sp - 1#16) = true → writable s (sp - 2#16) = true →
      samePlace s (sp - 1#16) (sp - 2#16) = false →
      ∃ u, exec .retn r.2 = .next u ∧ u.cpu.pc = back ∧ u.cpu.sp = sp ∧ u.cpu.iff1 = s.cpu.iff2)

/-- Over any calls of ExecuteOne, T-states returned = INT_PERIOD_T times expiries + countdown before - countdown after (60_exceptions.md R533, 60_exceptions.md R530, 00_scope.md R9, 10_state.md R49, 60_exceptions.md R512) -/
def Obligations.CountdownLaw : Prop :=
  (∀ (s t : State) (n total : Nat), Inv s → s.fault = none → s.cfg.intPeriodT ≠ 0 →
    runCalls n s = some (t, total) →
    (∃ expiries ≤ n, (total : Int) + t.cpu.intCountdown = s.cpu.intCountdown + s.cfg.intPeriodT * expiries) ∧
    0 < t.cpu.intCountdown ∧ t.cpu.intCountdown ≤ s.cfg.intPeriodT) ∧
  (∀ s u : State, Inv s → s.fault = none → s.cfg.intPeriodT ≠ 0 → s.cpu.intDeferred = false → Ran s u →
    let bus := s.cfg.intBusByte
    let left := s.cpu.intCountdown - u.tIns
    let cost := maskableCost u.cpu.im
    (0 < left → ∃ t, executeOne s = .next t ∧ t.fault = none ∧ NotEntered u t ∧ t.tCall = u.tIns ∧
      t.cpu.intCountdown = left) ∧
    (left ≤ 0 → Accepts bus u → ∃ t, executeOne s = .next t ∧ t.fault = none ∧ MaskableTaken bus u t ∧
      t.tCall = u.tIns + cost ∧ t.cpu.intCountdown = left + s.cfg.intPeriodT - cost) ∧
    (left ≤ 0 → u.cpu.iff1 = false ∨ u.cpu.eiShadow = true →
      ∃ t, executeOne s = .next t ∧ t.fault = none ∧ NotEntered u t ∧ t.tCall = u.tIns ∧
        t.cpu.intCountdown = left + s.cfg.intPeriodT)) ∧
  ∀ (s : State) (t : Nat), (ulaStep t s).2.cpu.intCountdown = s.cpu.intCountdown

/-- A falling edge of the configured refresh bit schedules a maskable interrupt that the next call presents after its instruction. The clause on the fault in mode 0, that the state is that of the completed instruction with the request consumed and nothing of the rest of the call done, is the model's reading of R500 and R502 (DEDUCED, log 10). (60_exceptions.md R511, 60_exceptions.md R531, 60_exceptions.md R532, 60_exceptions.md R514, 60_exceptions.md R520, 60_exceptions.md R522, 60_exceptions.md R500, 60_exceptions.md R502) -/
def Obligations.RefreshEdge : Prop :=
  ∀ s u : State, s.fault = none → Memory.wf s.cfg s.mem = true → Ran s u →
    let bus := s.cfg.intBusByte
    let fire := s.cpu.intDeferred
    let taken := fire = true ∧ u.cpu.iff1 = true ∧ u.cpu.eiShadow = false
    (fire = true → Accepts bus u → ∃ t, executeOne s = .next t ∧ t.fault = none ∧ MaskableTaken bus u t ∧
      t.tCall = u.tIns + maskableCost u.cpu.im) ∧
    (taken → u.cpu.im = .im0 → bus &&& 0xC7#8 ≠ 0xC7#8 →
      executeOne s = .next { u with fault := some (.im0Unsupported bus) }) ∧
    (¬ taken → s.cfg.intPeriodT = 0 → ∃ t, executeOne s = .next t ∧ t.fault = none ∧ NotEntered u t ∧
      t.tCall = u.tIns) ∧
    ∀ t, executeOne s = .next t → t.fault = none →
      (∀ bit (r : Byte), s.cfg.rIntBit = some bit →
        (taken → r = (u.cpu.r &&& 0x80#8) ||| ((u.cpu.r + 1#8) &&& 0x7F#8)) → (¬ taken → r = u.cpu.r) →
        t.ula.prevR = r ∧ t.cpu.intDeferred = (s.ula.prevR.getLsbD bit && !r.getLsbD bit)) ∧
      (s.cfg.rIntBit = none → t.ula.prevR = s.ula.prevR ∧ t.cpu.intDeferred = false)

/-- The line counter grows once per 207 T-states with the NMI generator off; with it on, a horizontal-sync edge enters the NMI, after the wait of a HALT (60_exceptions.md R552, 60_exceptions.md R548) -/
def Obligations.HsyncLine : Prop :=
  (∀ (s : State) (t : Nat),
    s.cfg.ulaVariant = .bufferReplay → s.ula.nmiOn = false → s.ula.syncReq = false → s.ula.vsync = false →
    let u := (ulaStep t s).2
    (ulaStep t s).1 = 0 ∧ u.ula.t = s.ula.t + t ∧
    u.ula.line = s.ula.line + (s.ula.lineT + t) / 207 ∧ u.ula.lineT = (s.ula.lineT + t) % 207 ∧
    u.ula.frame = s.ula.frame ∧ u.cpu = s.cpu ∧ u.mem = s.mem ∧
    u.ula.nmiOn = false ∧ u.ula.syncReq = false ∧ u.ula.vsync = false) ∧
  (∀ (n : Nat) (s t : State),
    s.cfg.ulaVariant = .bufferReplay → s.ula.lineT < s.cfg.tScanline → quietSteps n s = some t →
    s.ula.t ≤ t.ula.t ∧ t.ula.line = s.ula.line + (s.ula.lineT + (t.ula.t - s.ula.t)) / 207 ∧
    t.ula.frame = s.ula.frame) ∧
  (∀ (s : State) (t : Nat),
    s.ula.syncReq = false → s.ula.vsync = true → s.ula.t + t < s.ula.vsyncStartT + s.cfg.tVsyncMin →
    (ulaStep t s).2.ula.frame = s.ula.frame) ∧
  (∀ (s : State) (t : Nat), Inv s → s.ula.lineT ≤ s.ula.t → s.cfg.ulaVariant ≠ .none → s.ula.nmiOn = true →
    s.cfg.tScanline ≤ s.ula.lineT + t → s.ula.lineT + t < 2 * s.cfg.tScanline →
    let w := (ulaStep t s).2
    let offset := s.ula.lineT + t - s.cfg.tScanline
    let extra := (if s.cpu.halted then s.cfg.waitExtOf offset else 0) + 11
    (ulaStep t s).1 = extra ∧ NmiTaken s w ∧
      w.ula.line = (if s.ula.vsync = true ∧ s.ula.syncReq = false then 0 else s.ula.line + 1) ∧
      w.ula.hsyncEdgeT = s.ula.t + t - offset ∧ w.ula.t = s.ula.t + t + extra ∧ w.ula.lineT = offset + extra) ∧
  (∀ (s : State) (t : Nat), s.ula.nmiOn = false ∨ s.cfg.ulaVariant = .none ∨ s.ula.lineT + t < s.cfg.tScanline →
    (ulaStep t s).1 = 0 ∧ (ulaStep t s).2.cpu = s.cpu ∧ (ulaStep t s).2.mem = s.mem) ∧
  ∀ s : State,
    (s.ula.nmiOn = false → hsyncActions s = (0, s)) ∧
    (s.ula.nmiOn = true → Memory.wf s.cfg s.mem = true →
      (hsyncActions s).1 =
        (if s.cpu.halted then s.cfg.waitExtOf (s.ula.t - s.ula.hsyncEdgeT) else 0) + 11 ∧
      NmiTaken s (hsyncActions s).2)

/-- The frame changes only when a vertical-sync pulse of at least the minimum length completes; getFrame times out after two periods (60_exceptions.md R549, 60_exceptions.md R550, 60_exceptions.md R551, 10_state.md R58, 60_exceptions.md R554, 10_state.md R60) -/
def Obligations.FrameOnlyByPulse : Prop :=
  (∀ (s : State) (t : Nat),
    ((ulaStep t s).2.ula.frame ≠ s.ula.frame ∨ (ulaStep t s).2.notices ≠ s.notices) →
    s.ula.syncReq = false ∧ s.ula.vsync = true ∧ s.ula.vsyncStartT + s.cfg.tVsyncMin ≤ s.ula.t + t) ∧
  (∀ (s : State) (t : Nat),
    s.cfg.ulaVariant = .bufferReplay → s.ula.syncReq = false → s.ula.vsync = true →
    s.ula.vsyncStartT + s.cfg.tVsyncMin ≤ s.ula.t + t →
    let u := (ulaStep t s).2
    u.ula.frame = some (.bytes (readBlock u s.cfg.displayBase s.cfg.displayLen)) ∧
    (s.ula.nmiOn = false → u.ula.frame = some (.bytes (readBlock s s.cfg.displayBase s.cfg.displayLen))) ∧
    u.ula.frameT = s.ula.t + t ∧ u.ula.line = 0 ∧ u.ula.vsync = false ∧ u.notices = s.notices ++ [.frameReady]) ∧
  (∀ (s : State) (t : Nat), s.cfg.ulaVariant = .busReplay → s.ula.pendingChar = none →
    let u := (ulaStep t s).2
    let edges := (s.ula.lineT + t) / s.cfg.tScanline
    let closed := fun (line : List Byte) => if edges = 0 then [] else line :: List.replicate (edges - 1) []
    let work := s.ula.work ++ closed s.ula.scanRec
    let colorWork := s.ula.colorWork ++ closed s.ula.colorRec
    (s.ula.syncReq = false → s.ula.vsync = true → s.ula.vsyncStartT + s.cfg.tVsyncMin ≤ s.ula.t + t →
      u.ula.frame = some (.lines work colorWork) ∧ u.ula.frameT = s.ula.t + t ∧ u.ula.line = 0 ∧
      u.ula.vsync = false ∧ u.notices = s.notices ++ [.frameReady] ∧
      u.ula.scanRec = [] ∧ u.ula.colorRec = [] ∧ u.ula.work = [] ∧ u.ula.colorWork = []) ∧
    (s.ula.syncReq = true ∨ s.ula.vsync = false ∨ s.ula.t + t < s.ula.vsyncStartT + s.cfg.tVsyncMin →
      u.ula.work = work ∧ u.ula.colorWork = colorWork ∧
      u.ula.scanRec = (if edges = 0 then s.ula.scanRec else []) ∧
      u.ula.colorRec = (if edges = 0 then s.ula.colorRec else []) ∧ u.ula.frame = s.ula.frame)) ∧
  ∀ s : State, getFrame s = if s.ula.frameT + 2 * s.cfg.tVrefresh < s.ula.t then none else s.ula.frame

/-- In the bus-replay variant a character byte fetched in the upper half runs as NOP and adds one glyph byte to the line record. Whether it is shown at the fetch or at the start of the ULA step is a field of the configuration, the model's choice where R553 and R120 differ (log 33). (30_encoding.md R151, 60_exceptions.md R553, 20_memory.md R120) -/
def Obligations.BusReplayFetch : Prop :=
  ∀ s : State,
    let pc := s.cpu.pc
    let b := peek s pc
    let glyph := peek s (s.cfg.charGenOf s.cpu.i s.cpu.ix s.cpu.iy b s.ula.line)
    (s.cfg.ulaVariant = .busReplay → 0x8000 ≤ pc.toNat → b ∈ s.cfg.charData →
      (fetchInstr s).1 = [0x00#8] ∧ decode [0x00#8] = .ok (.nop, []) ∧
      (s.cfg.charRead = .atFetch → ∃ color,
        (fetchInstr s).2.ula = { s.ula with
          scanRec := s.ula.scanRec ++ [if b ∈ s.cfg.charInvert then ~~~glyph else glyph]
          colorRec := s.ula.colorRec ++ (if s.cfg.colorMode then [color] else []) }) ∧
      (s.cfg.charRead = .inUlaStep → (fetchInstr s).2.ula = { s.ula with pendingChar := some (pc, b) }) ∧
      (fetchInstr s).2.cpu = { s.cpu with r := nextR s.cpu.r } ∧ (fetchInstr s).2.mem = s.mem ∧
      ∃ u, exec .nop (fetchInstr s).2 = .next u ∧ ∀ a, peek u a = peek s a) ∧
    (s.cfg.ulaVariant ≠ .busReplay ∨ pc.toNat < 0x8000 ∨ b ∉ s.cfg.charData →
      (fetchInstr s).1.head? = some b ∧ (fetchInstr s).2.ula = s.ula) ∧
    ∀ (t : Nat) (pc0 : Word) (c : Byte), s.cfg.ulaVariant = .busReplay → s.ula.pendingChar = some (pc0, c) →
      let row := peek s (s.cfg.charGenOf s.cpu.i s.cpu.ix s.cpu.iy c s.ula.line)
      ∃ color, ulaStep t s = ulaStep t { s with ula := { s.ula with
        pendingChar := none
        scanRec := s.ula.scanRec ++ [if c ∈ s.cfg.charInvert then ~~~row else row]
        colorRec := s.ula.colorRec ++ (if s.cfg.colorMode then [color] else []) } }

/-- One iteration clears the hit record, takes one machine step, and stops for the first reason that holds, in the order of the rule. The clauses on conditions, log actions and messages rest on the model's form of a breakpoint (DESIGN CHOICE, log 15). In the step-out clause, that the taken return is judged on the state before the step and SP on the state after the whole step is the model's reading (DEDUCED, log 16). (60_exceptions.md R562, 60_exceptions.md R563, 60_exceptions.md R564, 60_exceptions.md R565, 60_exceptions.md R566, 60_exceptions.md R506, 60_exceptions.md R571, 60_exceptions.md R572) -/
def Obligations.DebugStops : Prop :=
  ∀ (s t : State) (single : Bool), machineStep (clearHit s) = .next t →
    ∃ u, iteration single s = .next u ∧ u.cpu = t.cpu ∧ u.mem = t.mem ∧ u.slots = t.slots ∧ u.ula = t.ula ∧
      u.fault = t.fault ∧ u.dbg.breakpoints = t.dbg.breakpoints ∧
      let stopped := fun (r : StopReason) (a : Word) (w : Option Failure) =>
        u.dbg.loop = .idle ∧ u.dbg.lastStop = some ⟨r, a, w⟩
      let answers := fun (b : Breakpoint) (c : CondResult) =>
        b.address = t.cpu.pc ∧ (b.condition.map (fun id => evalCondition id t)).getD .isTrue = c
      let atBreakpoint := t.dbg.transient1 = some t.cpu.pc ∨ t.dbg.transient2 = some t.cpu.pc ∨
        ∃ b ∈ t.dbg.breakpoints, answers b .error ∨ (answers b .isTrue ∧ ∀ m, b.action ≠ .logOnly m)
      let messages := t.dbg.breakpoints.filterMap (fun b =>
        if b.address = t.cpu.pc ∧ (b.condition.map (fun id => evalCondition id t)).getD .isTrue = .isTrue then
          match b.action with
          | .stop => none
          | .logOnly m => some (.logMessage t.cpu.pc m)
          | .logAndStop m => some (.logMessage t.cpu.pc m)
        else none)
      let returned := ∃ i rest, decode (fetchInstr (beginCall (clearHit s))).1 = .ok (i, rest) ∧
        (i ∈ [.ret, .reti, .retn] ∨ ∃ cc, i = .retCC cc ∧ condHolds s cc = true)
      (t.fault ≠ none → stopped .unexpectedFailure t.pc0 none) ∧
      (∀ f, t.fault = none → t.failure = some f → stopped .unexpectedFailure t.pc0 (some f)) ∧
      (t.fault = none → t.failure = none → atBreakpoint → stopped .breakpointHit t.cpu.pc none) ∧
      (t.fault ≠ none ∨ t.failure ≠ none → u.notices = t.notices) ∧
      (t.fault = none → t.failure = none →
        atBreakpoint ∨ t.watch.hit ≠ none ∨ t.dbg.pauseReq = false → u.notices = t.notices ++ messages) ∧
      (t.fault = none → t.failure = none → ¬ atBreakpoint →
        (∀ a, t.watch.hit = some (a, .read) → stopped .watchpointRead a none) ∧
        (∀ a, t.watch.hit = some (a, .write) → stopped .watchpointWrite a none) ∧
        (t.watch.hit = none → t.dbg.pauseReq = true →
          stopped .manualPause t.cpu.pc none ∧ u.dbg.pauseReq = false ∧
            u.notices = t.notices ++ messages ++ [.pauseAcknowledged]) ∧
        (t.watch.hit = none → t.dbg.pauseReq = false →
          (single = true → stopped .stepDone t.cpu.pc none) ∧
          (single = false → t.dbg.loop = .steppingOut → returned → t.dbg.sp0.toNat < t.cpu.sp.toNat →
            stopped .stepDone t.cpu.pc none) ∧
          (single = false → t.dbg.loop ≠ .steppingOut ∨ ¬ returned ∨ t.cpu.sp.toNat ≤ t.dbg.sp0.toNat →
            u.dbg = t.dbg)))

/-- A run of m + n iterations is a run of m iterations followed by one of n, so the batch size does not change what a run does (60_exceptions.md R570, 60_exceptions.md R562) -/
def Obligations.BatchIndependence : Prop :=
  (∀ (s : State) (m n : Nat),
    runBatch (m + n) s =
      match runBatch m s with
      | .next t => runBatch n t
      | .fault f => .fault f
      | .refused r => .refused r) ∧
  (∀ s : State, s.dbg.loop ≠ .idle → runBatch 1 s = iteration false s) ∧
  (∀ (s : State) (n : Nat), s.dbg.loop = .idle → runBatch n s = .next s) ∧
  ∀ s : State, resume s = runBatch s.cfg.batchN s

/-- What debugging records cannot reach a program: two states alike to the program step alike, whatever their debug state (60_exceptions.md R590, 60_exceptions.md R578, 10_state.md R56, 10_state.md R61, 60_exceptions.md R555) -/
def Obligations.DebugNoninterference : Prop :=
  ∀ s s' t : State, s.fault = none → s'.fault = none → programView s = programView s' →
    step s = .next t → ∃ t', step s' = .next t' ∧ programView t' = programView t ∧
      (ColorsFixed s.cfg → s.ula = s'.ula → t'.ula = t.ula)

/-- Restoring a snapshot gives the saved CPU, hidden state, memory, slots, ports and ULA; watchpoints and breakpoints stay (60_exceptions.md R583, 60_exceptions.md R584, 60_exceptions.md R504, 10_state.md R65, 70_reset_and_hazards.md R604) -/
def Obligations.SnapshotRoundTrip : Prop :=
  ∀ x y : State, y.dbg.loop = .idle →
    (y.cfg = x.cfg → x.slots.length = x.cfg.slots.length →
      ∃ t, restore (save x) y = .ok t ∧
        t.cpu = x.cpu ∧ t.mem = x.mem ∧ t.slots = x.slots ∧ t.periph = x.periph ∧ t.script = x.script ∧
        t.ula = x.ula ∧ t.cfg = x.cfg ∧ (∀ a, peek t a = peek x a) ∧
        t.load.idle = 0 ∧ t.load.active = 0 ∧ t.load.ints = 0 ∧ t.fault = none ∧ t.watch.hit = none ∧
        t.watch.read = y.watch.read ∧ t.watch.write = y.watch.write ∧ t.dbg = y.dbg ∧
        t.coverage = y.coverage ∧ t.activity = y.activity) ∧
    (∀ snap : Snapshot, snap.shape ≠ y.cfg.slots.length :: y.cfg.banks.map Bank.size →
      ∃ t, restore snap y = .ok t ∧ t.fault = some .corruptState ∧ step t = .fault .corruptState)
end

