-- ==== Sys2Proof/Laws/Decode.lean ====
section
/-! SUPPORT. Words and their bytes, and the few values a bit number and a restart target can have. -/

namespace Sys2Proof

@[simp] theorem hiByte_wordOf (hi lo : Byte) : hiByte (wordOf hi lo) = hi := by
  simp only [hiByte, wordOf]; exact BitVec.extractLsb'_append_eq_left

@[simp] theorem loByte_wordOf (hi lo : Byte) : loByte (wordOf hi lo) = lo := by
  simp only [loByte, wordOf]; exact BitVec.extractLsb'_append_eq_right

@[simp] theorem wordOf_hiByte_loByte (v : Word) : wordOf (hiByte v) (loByte v) = v := by
  apply BitVec.eq_of_getLsbD_eq
  intro k hk
  simp only [wordOf, hiByte, loByte, BitVec.getLsbD_append, BitVec.getLsbD_extractLsb']
  by_cases h : k < 8
  · simp [h]
  · have h8 : 8 + (k - 8) = k := by omega
    simp [h, h8, show k - 8 < 8 by omega]

/-- The bit numbers. -/
theorem bitNumberOk_cases {bit : Nat} (h : bitNumberOk bit = true) :
    bit = 0 ∨ bit = 1 ∨ bit = 2 ∨ bit = 3 ∨ bit = 4 ∨ bit = 5 ∨ bit = 6 ∨ bit = 7 := by
  simp only [bitNumberOk, decide_eq_true_eq] at h
  omega

/-- The restart targets. -/
theorem restartOk_cases {target : Word} (h : restartOk target = true) :
    target = 0x0000#16 ∨ target = 0x0008#16 ∨ target = 0x0010#16 ∨ target = 0x0018#16 ∨
      target = 0x0020#16 ∨ target = 0x0028#16 ∨ target = 0x0030#16 ∨ target = 0x0038#16 := by
  simp only [restartOk, beq_iff_eq] at h
  have hle : target.toNat ≤ 0x38 := by
    rw [← h, BitVec.toNat_and]
    exact Nat.and_le_right
  have hlt : target.toNat < 57 := by omega
  have hall : ∀ n : Nat, n < 57 → (BitVec.ofNat 16 n &&& 0x0038#16 = BitVec.ofNat 16 n) →
      BitVec.ofNat 16 n = 0x0000#16 ∨ BitVec.ofNat 16 n = 0x0008#16 ∨ BitVec.ofNat 16 n = 0x0010#16 ∨
      BitVec.ofNat 16 n = 0x0018#16 ∨ BitVec.ofNat 16 n = 0x0020#16 ∨ BitVec.ofNat 16 n = 0x0028#16 ∨
      BitVec.ofNat 16 n = 0x0030#16 ∨ BitVec.ofNat 16 n = 0x0038#16 := by decide
  simpa using hall target.toNat hlt (by simpa using h)

end Sys2Proof
end

