-- ==== Sys2Proof/Laws/Sparse.lean ====
section
/-! SUPPORT. Sparse maps: read after write, the canonical form, and that it makes equal maps equal lists. -/

namespace Sys2Proof.Machine

variable {α : Type} [DecidableEq α] {dflt : Nat → α} {low k k' : Nat} {v : α} {m : List (Nat × α)}

@[simp] theorem Sparse.wfAbove_nil : Sparse.wfAbove dflt low [] = true := rfl

@[simp] theorem Sparse.wfAbove_cons {e : Nat × α} :
    Sparse.wfAbove dflt low (e :: m) = true ↔
      low ≤ e.1 ∧ e.2 ≠ dflt e.1 ∧ Sparse.wfAbove dflt (e.1 + 1) m = true := by
  simp [Sparse.wfAbove, and_assoc]

theorem Sparse.wfAbove_mono {low' : Nat} (h : low' ≤ low) (hm : Sparse.wfAbove dflt low m = true) :
    Sparse.wfAbove dflt low' m = true := by
  cases m with
  | nil => rfl
  | cons e m => simp_all; omega

/-- Below every listed key a map reads as unlisted. -/
theorem Sparse.get_of_lt (d : α) (hm : Sparse.wfAbove dflt low m = true) (h : k < low) : Sparse.get d k m = d := by
  cases m with
  | nil => rfl
  | cons e m =>
    have := (Sparse.wfAbove_cons.mp hm).1
    simp [Sparse.get, show e.1 ≠ k by omega, show k < e.1 by omega]

theorem Sparse.get_set_same (hm : Sparse.wfAbove dflt low m = true) (d : α) :
    Sparse.get d k (Sparse.set d k v m) = v := by
  induction m generalizing low with
  | nil => by_cases h : v = d <;> simp [Sparse.set, Sparse.get, h]
  | cons e m ih =>
    obtain ⟨-, -, hrest⟩ := Sparse.wfAbove_cons.mp hm
    simp only [Sparse.set]
    split
    · rename_i hlt
      split
      · simp [Sparse.get, show e.1 ≠ k by omega, *]
      · simp [Sparse.get]
    · split
      · split
        · rename_i hv
          rw [hv]
          exact Sparse.get_of_lt d hrest (by omega)
        · simp [Sparse.get]
      · simp [Sparse.get, show e.1 ≠ k by omega, show ¬ k < e.1 by omega, ih hrest]

theorem Sparse.get_set_ne (hm : Sparse.wfAbove dflt low m = true) (d d' : α) (h : k' ≠ k) :
    Sparse.get d' k' (Sparse.set d k v m) = Sparse.get d' k' m := by
  induction m generalizing low with
  | nil => by_cases hv : v = d <;> simp [Sparse.set, Sparse.get, hv, h.symm]
  | cons e m ih =>
    obtain ⟨-, -, hrest⟩ := Sparse.wfAbove_cons.mp hm
    simp only [Sparse.set]
    split
    · split
      · rfl
      · simp only [Sparse.get, h.symm, if_false]
        split
        · simp [show e.1 ≠ k' by omega, show k' < e.1 by omega]
        · rfl
    · split
      · split
        · simp only [Sparse.get, show e.1 ≠ k' by omega, if_false]
          split
          · exact Sparse.get_of_lt d' hrest (by omega)
          · rfl
        · simp [Sparse.get, show e.1 ≠ k' by omega, h.symm]
          simp_all
      · simp only [Sparse.get, ih hrest]

theorem Sparse.wfAbove_set (hm : Sparse.wfAbove dflt low m = true) (hk : low ≤ k) :
    Sparse.wfAbove dflt low (Sparse.set (dflt k) k v m) = true := by
  induction m generalizing low with
  | nil => by_cases h : v = dflt k <;> simp [Sparse.set, h, hk]
  | cons e m ih =>
    obtain ⟨hlow, hne, hrest⟩ := Sparse.wfAbove_cons.mp hm
    simp only [Sparse.set]
    split
    · split
      · exact hm
      · simp_all
    · split
      · split
        · exact Sparse.wfAbove_mono (by omega) hrest
        · simp_all
      · simp [hlow, hne, ih hrest (show e.1 + 1 ≤ k by omega)]

/-- A write keeps the canonical form. -/
theorem Sparse.wf_set (hm : Sparse.wf dflt m = true) : Sparse.wf dflt (Sparse.set (dflt k) k v m) = true :=
  Sparse.wfAbove_set hm (Nat.zero_le k)

/-- Two maps in canonical form that read alike everywhere are one list. -/
theorem Sparse.ext_of_wfAbove {m' : List (Nat × α)} (hm : Sparse.wfAbove dflt low m = true)
    (hm' : Sparse.wfAbove dflt low m' = true) (h : ∀ k, Sparse.get (dflt k) k m = Sparse.get (dflt k) k m') :
    m = m' := by
  induction m generalizing low m' with
  | nil =>
    cases m' with
    | nil => rfl
    | cons e m' => exact absurd (by simpa [Sparse.get] using h e.1) (Ne.symm (Sparse.wfAbove_cons.mp hm').2.1)
  | cons e m ih =>
    obtain ⟨-, hne, hrest⟩ := Sparse.wfAbove_cons.mp hm
    cases m' with
    | nil => exact absurd (by simpa [Sparse.get] using h e.1) hne
    | cons e' m' =>
      obtain ⟨-, hne', hrest'⟩ := Sparse.wfAbove_cons.mp hm'
      have hkey : e.1 = e'.1 := by
        rcases Nat.lt_trichotomy e.1 e'.1 with hlt | heq | hgt
        · have := h e.1
          simp [Sparse.get, show e'.1 ≠ e.1 by omega, hlt] at this
          exact absurd this hne
        · exact heq
        · have := h e'.1
          simp [Sparse.get, show e.1 ≠ e'.1 by omega, hgt] at this
          exact absurd this.symm hne'
      have hval : e.2 = e'.2 := by simpa [Sparse.get, hkey] using h e.1
      have htail : m = m' := by
        refine ih hrest (by rw [hkey]; exact hrest') fun k => ?_
        by_cases hk : k < e.1 + 1
        · rw [Sparse.get_of_lt _ hrest hk, Sparse.get_of_lt _ hrest' (by omega)]
        · have := h k
          simpa [Sparse.get, show e.1 ≠ k by omega, show ¬ k < e.1 by omega, show e'.1 ≠ k by omega,
            show ¬ k < e'.1 by omega] using this
      rw [htail, Prod.ext hkey hval]

end Sys2Proof.Machine
end

