-- ==== Sys2Proof/Laws/State.lean ====
section
/-! SUPPORT. One lemma for each field and each update of the state: what it holds, or that it is left alone. -/

namespace Sys2Proof.Machine

variable (s : State)

/-! ### `noteAccess` -/

@[simp] theorem noteAccess_cfg (k : AccessKind) (x : Word) : (noteAccess k x s).cfg = s.cfg := rfl
@[simp] theorem noteAccess_cpu (k : AccessKind) (x : Word) : (noteAccess k x s).cpu = s.cpu := rfl
@[simp] theorem noteAccess_pc0 (k : AccessKind) (x : Word) : (noteAccess k x s).pc0 = s.pc0 := rfl
@[simp] theorem noteAccess_tIns (k : AccessKind) (x : Word) : (noteAccess k x s).tIns = s.tIns := rfl
@[simp] theorem noteAccess_tCall (k : AccessKind) (x : Word) : (noteAccess k x s).tCall = s.tCall := rfl
@[simp] theorem noteAccess_tTotal (k : AccessKind) (x : Word) : (noteAccess k x s).tTotal = s.tTotal := rfl
@[simp] theorem noteAccess_load (k : AccessKind) (x : Word) : (noteAccess k x s).load = s.load := rfl
@[simp] theorem noteAccess_mem (k : AccessKind) (x : Word) : (noteAccess k x s).mem = s.mem := rfl
@[simp] theorem noteAccess_slots (k : AccessKind) (x : Word) : (noteAccess k x s).slots = s.slots := rfl
@[simp] theorem noteAccess_watch (k : AccessKind) (x : Word) : (noteAccess k x s).watch = s.watch.check k x := rfl
@[simp] theorem noteAccess_activity (k : AccessKind) (x : Word) : (noteAccess k x s).activity = markAccess k x s.activity := rfl
@[simp] theorem noteAccess_coverage (k : AccessKind) (x : Word) : (noteAccess k x s).coverage = s.coverage := rfl
@[simp] theorem noteAccess_periph (k : AccessKind) (x : Word) : (noteAccess k x s).periph = s.periph := rfl
@[simp] theorem noteAccess_script (k : AccessKind) (x : Word) : (noteAccess k x s).script = s.script := rfl
@[simp] theorem noteAccess_ula (k : AccessKind) (x : Word) : (noteAccess k x s).ula = s.ula := rfl
@[simp] theorem noteAccess_dbg (k : AccessKind) (x : Word) : (noteAccess k x s).dbg = s.dbg := rfl
@[simp] theorem noteAccess_notices (k : AccessKind) (x : Word) : (noteAccess k x s).notices = s.notices := rfl
@[simp] theorem noteAccess_failure (k : AccessKind) (x : Word) : (noteAccess k x s).failure = s.failure := rfl
@[simp] theorem noteAccess_fault (k : AccessKind) (x : Word) : (noteAccess k x s).fault = s.fault := rfl
@[simp] theorem noteAccess_draws (k : AccessKind) (x : Word) : (noteAccess k x s).draws = s.draws := rfl

/-! ### `poke` -/

@[simp] theorem poke_cfg (rom : Bool) (x : Word) (v : Byte) : (poke rom x v s).cfg = s.cfg := rfl
@[simp] theorem poke_cpu (rom : Bool) (x : Word) (v : Byte) : (poke rom x v s).cpu = s.cpu := rfl
@[simp] theorem poke_pc0 (rom : Bool) (x : Word) (v : Byte) : (poke rom x v s).pc0 = s.pc0 := rfl
@[simp] theorem poke_tIns (rom : Bool) (x : Word) (v : Byte) : (poke rom x v s).tIns = s.tIns := rfl
@[simp] theorem poke_tCall (rom : Bool) (x : Word) (v : Byte) : (poke rom x v s).tCall = s.tCall := rfl
@[simp] theorem poke_tTotal (rom : Bool) (x : Word) (v : Byte) : (poke rom x v s).tTotal = s.tTotal := rfl
@[simp] theorem poke_load (rom : Bool) (x : Word) (v : Byte) : (poke rom x v s).load = s.load := rfl
@[simp] theorem poke_mem (rom : Bool) (x : Word) (v : Byte) : (poke rom x v s).mem = pokeMem rom x v s := rfl
@[simp] theorem poke_slots (rom : Bool) (x : Word) (v : Byte) : (poke rom x v s).slots = s.slots := rfl
@[simp] theorem poke_watch (rom : Bool) (x : Word) (v : Byte) : (poke rom x v s).watch = s.watch := rfl
@[simp] theorem poke_activity (rom : Bool) (x : Word) (v : Byte) : (poke rom x v s).activity = s.activity := rfl
@[simp] theorem poke_coverage (rom : Bool) (x : Word) (v : Byte) : (poke rom x v s).coverage = s.coverage := rfl
@[simp] theorem poke_periph (rom : Bool) (x : Word) (v : Byte) : (poke rom x v s).periph = s.periph := rfl
@[simp] theorem poke_script (rom : Bool) (x : Word) (v : Byte) : (poke rom x v s).script = s.script := rfl
@[simp] theorem poke_ula (rom : Bool) (x : Word) (v : Byte) : (poke rom x v s).ula = s.ula := rfl
@[simp] theorem poke_dbg (rom : Bool) (x : Word) (v : Byte) : (poke rom x v s).dbg = s.dbg := rfl
@[simp] theorem poke_notices (rom : Bool) (x : Word) (v : Byte) : (poke rom x v s).notices = s.notices := rfl
@[simp] theorem poke_failure (rom : Bool) (x : Word) (v : Byte) : (poke rom x v s).failure = s.failure := rfl
@[simp] theorem poke_fault (rom : Bool) (x : Word) (v : Byte) : (poke rom x v s).fault = s.fault := rfl
@[simp] theorem poke_draws (rom : Bool) (x : Word) (v : Byte) : (poke rom x v s).draws = s.draws := rfl

/-! ### `read8` -/

@[simp] theorem read8_cfg (x : Word) : ((read8 x s).2).cfg = s.cfg := rfl
@[simp] theorem read8_cpu (x : Word) : ((read8 x s).2).cpu = s.cpu := rfl
@[simp] theorem read8_pc0 (x : Word) : ((read8 x s).2).pc0 = s.pc0 := rfl
@[simp] theorem read8_tIns (x : Word) : ((read8 x s).2).tIns = s.tIns := rfl
@[simp] theorem read8_tCall (x : Word) : ((read8 x s).2).tCall = s.tCall := rfl
@[simp] theorem read8_tTotal (x : Word) : ((read8 x s).2).tTotal = s.tTotal := rfl
@[simp] theorem read8_load (x : Word) : ((read8 x s).2).load = s.load := rfl
@[simp] theorem read8_mem (x : Word) : ((read8 x s).2).mem = s.mem := rfl
@[simp] theorem read8_slots (x : Word) : ((read8 x s).2).slots = s.slots := rfl
@[simp] theorem read8_watch (x : Word) : ((read8 x s).2).watch = s.watch.check .read x := rfl
@[simp] theorem read8_activity (x : Word) : ((read8 x s).2).activity = markAccess .read x s.activity := rfl
@[simp] theorem read8_coverage (x : Word) : ((read8 x s).2).coverage = s.coverage := rfl
@[simp] theorem read8_periph (x : Word) : ((read8 x s).2).periph = s.periph := rfl
@[simp] theorem read8_script (x : Word) : ((read8 x s).2).script = s.script := rfl
@[simp] theorem read8_ula (x : Word) : ((read8 x s).2).ula = s.ula := rfl
@[simp] theorem read8_dbg (x : Word) : ((read8 x s).2).dbg = s.dbg := rfl
@[simp] theorem read8_notices (x : Word) : ((read8 x s).2).notices = s.notices := rfl
@[simp] theorem read8_failure (x : Word) : ((read8 x s).2).failure = s.failure := rfl
@[simp] theorem read8_fault (x : Word) : ((read8 x s).2).fault = s.fault := rfl
@[simp] theorem read8_draws (x : Word) : ((read8 x s).2).draws = s.draws := rfl

/-! ### `write8` -/

@[simp] theorem write8_cfg (x : Word) (v : Byte) : (write8 x v s).cfg = s.cfg := rfl
@[simp] theorem write8_cpu (x : Word) (v : Byte) : (write8 x v s).cpu = s.cpu := rfl
@[simp] theorem write8_pc0 (x : Word) (v : Byte) : (write8 x v s).pc0 = s.pc0 := rfl
@[simp] theorem write8_tIns (x : Word) (v : Byte) : (write8 x v s).tIns = s.tIns := rfl
@[simp] theorem write8_tCall (x : Word) (v : Byte) : (write8 x v s).tCall = s.tCall := rfl
@[simp] theorem write8_tTotal (x : Word) (v : Byte) : (write8 x v s).tTotal = s.tTotal := rfl
@[simp] theorem write8_load (x : Word) (v : Byte) : (write8 x v s).load = s.load := rfl
@[simp] theorem write8_mem (x : Word) (v : Byte) : (write8 x v s).mem = pokeMem false x v s := rfl
@[simp] theorem write8_slots (x : Word) (v : Byte) : (write8 x v s).slots = s.slots := rfl
@[simp] theorem write8_watch (x : Word) (v : Byte) : (write8 x v s).watch = s.watch.check .write x := rfl
@[simp] theorem write8_activity (x : Word) (v : Byte) : (write8 x v s).activity = markAccess .write x s.activity := rfl
@[simp] theorem write8_coverage (x : Word) (v : Byte) : (write8 x v s).coverage = s.coverage := rfl
@[simp] theorem write8_periph (x : Word) (v : Byte) : (write8 x v s).periph = s.periph := rfl
@[simp] theorem write8_script (x : Word) (v : Byte) : (write8 x v s).script = s.script := rfl
@[simp] theorem write8_ula (x : Word) (v : Byte) : (write8 x v s).ula = s.ula := rfl
@[simp] theorem write8_dbg (x : Word) (v : Byte) : (write8 x v s).dbg = s.dbg := rfl
@[simp] theorem write8_notices (x : Word) (v : Byte) : (write8 x v s).notices = s.notices := rfl
@[simp] theorem write8_failure (x : Word) (v : Byte) : (write8 x v s).failure = s.failure := rfl
@[simp] theorem write8_fault (x : Word) (v : Byte) : (write8 x v s).fault = s.fault := rfl
@[simp] theorem write8_draws (x : Word) (v : Byte) : (write8 x v s).draws = s.draws := rfl

/-! ### `setTIns` -/

@[simp] theorem setTIns_cfg (n : Nat) : (setTIns n s).cfg = s.cfg := rfl
@[simp] theorem setTIns_cpu (n : Nat) : (setTIns n s).cpu = s.cpu := rfl
@[simp] theorem setTIns_pc0 (n : Nat) : (setTIns n s).pc0 = s.pc0 := rfl
@[simp] theorem setTIns_tIns (n : Nat) : (setTIns n s).tIns = n := rfl
@[simp] theorem setTIns_tCall (n : Nat) : (setTIns n s).tCall = s.tCall := rfl
@[simp] theorem setTIns_tTotal (n : Nat) : (setTIns n s).tTotal = s.tTotal := rfl
@[simp] theorem setTIns_load (n : Nat) : (setTIns n s).load = s.load := rfl
@[simp] theorem setTIns_mem (n : Nat) : (setTIns n s).mem = s.mem := rfl
@[simp] theorem setTIns_slots (n : Nat) : (setTIns n s).slots = s.slots := rfl
@[simp] theorem setTIns_watch (n : Nat) : (setTIns n s).watch = s.watch := rfl
@[simp] theorem setTIns_activity (n : Nat) : (setTIns n s).activity = s.activity := rfl
@[simp] theorem setTIns_coverage (n : Nat) : (setTIns n s).coverage = s.coverage := rfl
@[simp] theorem setTIns_periph (n : Nat) : (setTIns n s).periph = s.periph := rfl
@[simp] theorem setTIns_script (n : Nat) : (setTIns n s).script = s.script := rfl
@[simp] theorem setTIns_ula (n : Nat) : (setTIns n s).ula = s.ula := rfl
@[simp] theorem setTIns_dbg (n : Nat) : (setTIns n s).dbg = s.dbg := rfl
@[simp] theorem setTIns_notices (n : Nat) : (setTIns n s).notices = s.notices := rfl
@[simp] theorem setTIns_failure (n : Nat) : (setTIns n s).failure = s.failure := rfl
@[simp] theorem setTIns_fault (n : Nat) : (setTIns n s).fault = s.fault := rfl
@[simp] theorem setTIns_draws (n : Nat) : (setTIns n s).draws = s.draws := rfl

/-! ### `setPC` -/

@[simp] theorem setPC_cfg (v : Word) : (setPC v s).cfg = s.cfg := rfl
@[simp] theorem setPC_pc0 (v : Word) : (setPC v s).pc0 = s.pc0 := rfl
@[simp] theorem setPC_tIns (v : Word) : (setPC v s).tIns = s.tIns := rfl
@[simp] theorem setPC_tCall (v : Word) : (setPC v s).tCall = s.tCall := rfl
@[simp] theorem setPC_tTotal (v : Word) : (setPC v s).tTotal = s.tTotal := rfl
@[simp] theorem setPC_load (v : Word) : (setPC v s).load = s.load := rfl
@[simp] theorem setPC_mem (v : Word) : (setPC v s).mem = s.mem := rfl
@[simp] theorem setPC_slots (v : Word) : (setPC v s).slots = s.slots := rfl
@[simp] theorem setPC_watch (v : Word) : (setPC v s).watch = s.watch := rfl
@[simp] theorem setPC_activity (v : Word) : (setPC v s).activity = s.activity := rfl
@[simp] theorem setPC_coverage (v : Word) : (setPC v s).coverage = s.coverage := rfl
@[simp] theorem setPC_periph (v : Word) : (setPC v s).periph = s.periph := rfl
@[simp] theorem setPC_script (v : Word) : (setPC v s).script = s.script := rfl
@[simp] theorem setPC_ula (v : Word) : (setPC v s).ula = s.ula := rfl
@[simp] theorem setPC_dbg (v : Word) : (setPC v s).dbg = s.dbg := rfl
@[simp] theorem setPC_notices (v : Word) : (setPC v s).notices = s.notices := rfl
@[simp] theorem setPC_failure (v : Word) : (setPC v s).failure = s.failure := rfl
@[simp] theorem setPC_fault (v : Word) : (setPC v s).fault = s.fault := rfl
@[simp] theorem setPC_draws (v : Word) : (setPC v s).draws = s.draws := rfl
@[simp] theorem setPC_cpu_a (v : Word) : (setPC v s).cpu.a = s.cpu.a := rfl
@[simp] theorem setPC_cpu_f (v : Word) : (setPC v s).cpu.f = s.cpu.f := rfl
@[simp] theorem setPC_cpu_b (v : Word) : (setPC v s).cpu.b = s.cpu.b := rfl
@[simp] theorem setPC_cpu_c (v : Word) : (setPC v s).cpu.c = s.cpu.c := rfl
@[simp] theorem setPC_cpu_d (v : Word) : (setPC v s).cpu.d = s.cpu.d := rfl
@[simp] theorem setPC_cpu_e (v : Word) : (setPC v s).cpu.e = s.cpu.e := rfl
@[simp] theorem setPC_cpu_h (v : Word) : (setPC v s).cpu.h = s.cpu.h := rfl
@[simp] theorem setPC_cpu_l (v : Word) : (setPC v s).cpu.l = s.cpu.l := rfl
@[simp] theorem setPC_cpu_altA (v : Word) : (setPC v s).cpu.altA = s.cpu.altA := rfl
@[simp] theorem setPC_cpu_altF (v : Word) : (setPC v s).cpu.altF = s.cpu.altF := rfl
@[simp] theorem setPC_cpu_altB (v : Word) : (setPC v s).cpu.altB = s.cpu.altB := rfl
@[simp] theorem setPC_cpu_altC (v : Word) : (setPC v s).cpu.altC = s.cpu.altC := rfl
@[simp] theorem setPC_cpu_altD (v : Word) : (setPC v s).cpu.altD = s.cpu.altD := rfl
@[simp] theorem setPC_cpu_altE (v : Word) : (setPC v s).cpu.altE = s.cpu.altE := rfl
@[simp] theorem setPC_cpu_altH (v : Word) : (setPC v s).cpu.altH = s.cpu.altH := rfl
@[simp] theorem setPC_cpu_altL (v : Word) : (setPC v s).cpu.altL = s.cpu.altL := rfl
@[simp] theorem setPC_cpu_ix (v : Word) : (setPC v s).cpu.ix = s.cpu.ix := rfl
@[simp] theorem setPC_cpu_iy (v : Word) : (setPC v s).cpu.iy = s.cpu.iy := rfl
@[simp] theorem setPC_cpu_sp (v : Word) : (setPC v s).cpu.sp = s.cpu.sp := rfl
@[simp] theorem setPC_cpu_pc (v : Word) : (setPC v s).cpu.pc = v := rfl
@[simp] theorem setPC_cpu_i (v : Word) : (setPC v s).cpu.i = s.cpu.i := rfl
@[simp] theorem setPC_cpu_r (v : Word) : (setPC v s).cpu.r = s.cpu.r := rfl
@[simp] theorem setPC_cpu_im (v : Word) : (setPC v s).cpu.im = s.cpu.im := rfl
@[simp] theorem setPC_cpu_iff1 (v : Word) : (setPC v s).cpu.iff1 = s.cpu.iff1 := rfl
@[simp] theorem setPC_cpu_iff2 (v : Word) : (setPC v s).cpu.iff2 = s.cpu.iff2 := rfl
@[simp] theorem setPC_cpu_halted (v : Word) : (setPC v s).cpu.halted = s.cpu.halted := rfl
@[simp] theorem setPC_cpu_eiShadow (v : Word) : (setPC v s).cpu.eiShadow = s.cpu.eiShadow := rfl
@[simp] theorem setPC_cpu_intDeferred (v : Word) : (setPC v s).cpu.intDeferred = s.cpu.intDeferred := rfl
@[simp] theorem setPC_cpu_intCountdown (v : Word) : (setPC v s).cpu.intCountdown = s.cpu.intCountdown := rfl

/-! ### `setSP` -/

@[simp] theorem setSP_cfg (v : Word) : (setSP v s).cfg = s.cfg := rfl
@[simp] theorem setSP_pc0 (v : Word) : (setSP v s).pc0 = s.pc0 := rfl
@[simp] theorem setSP_tIns (v : Word) : (setSP v s).tIns = s.tIns := rfl
@[simp] theorem setSP_tCall (v : Word) : (setSP v s).tCall = s.tCall := rfl
@[simp] theorem setSP_tTotal (v : Word) : (setSP v s).tTotal = s.tTotal := rfl
@[simp] theorem setSP_load (v : Word) : (setSP v s).load = s.load := rfl
@[simp] theorem setSP_mem (v : Word) : (setSP v s).mem = s.mem := rfl
@[simp] theorem setSP_slots (v : Word) : (setSP v s).slots = s.slots := rfl
@[simp] theorem setSP_watch (v : Word) : (setSP v s).watch = s.watch := rfl
@[simp] theorem setSP_activity (v : Word) : (setSP v s).activity = s.activity := rfl
@[simp] theorem setSP_coverage (v : Word) : (setSP v s).coverage = s.coverage := rfl
@[simp] theorem setSP_periph (v : Word) : (setSP v s).periph = s.periph := rfl
@[simp] theorem setSP_script (v : Word) : (setSP v s).script = s.script := rfl
@[simp] theorem setSP_ula (v : Word) : (setSP v s).ula = s.ula := rfl
@[simp] theorem setSP_dbg (v : Word) : (setSP v s).dbg = s.dbg := rfl
@[simp] theorem setSP_notices (v : Word) : (setSP v s).notices = s.notices := rfl
@[simp] theorem setSP_failure (v : Word) : (setSP v s).failure = s.failure := rfl
@[simp] theorem setSP_fault (v : Word) : (setSP v s).fault = s.fault := rfl
@[simp] theorem setSP_draws (v : Word) : (setSP v s).draws = s.draws := rfl
@[simp] theorem setSP_cpu_a (v : Word) : (setSP v s).cpu.a = s.cpu.a := rfl
@[simp] theorem setSP_cpu_f (v : Word) : (setSP v s).cpu.f = s.cpu.f := rfl
@[simp] theorem setSP_cpu_b (v : Word) : (setSP v s).cpu.b = s.cpu.b := rfl
@[simp] theorem setSP_cpu_c (v : Word) : (setSP v s).cpu.c = s.cpu.c := rfl
@[simp] theorem setSP_cpu_d (v : Word) : (setSP v s).cpu.d = s.cpu.d := rfl
@[simp] theorem setSP_cpu_e (v : Word) : (setSP v s).cpu.e = s.cpu.e := rfl
@[simp] theorem setSP_cpu_h (v : Word) : (setSP v s).cpu.h = s.cpu.h := rfl
@[simp] theorem setSP_cpu_l (v : Word) : (setSP v s).cpu.l = s.cpu.l := rfl
@[simp] theorem setSP_cpu_altA (v : Word) : (setSP v s).cpu.altA = s.cpu.altA := rfl
@[simp] theorem setSP_cpu_altF (v : Word) : (setSP v s).cpu.altF = s.cpu.altF := rfl
@[simp] theorem setSP_cpu_altB (v : Word) : (setSP v s).cpu.altB = s.cpu.altB := rfl
@[simp] theorem setSP_cpu_altC (v : Word) : (setSP v s).cpu.altC = s.cpu.altC := rfl
@[simp] theorem setSP_cpu_altD (v : Word) : (setSP v s).cpu.altD = s.cpu.altD := rfl
@[simp] theorem setSP_cpu_altE (v : Word) : (setSP v s).cpu.altE = s.cpu.altE := rfl
@[simp] theorem setSP_cpu_altH (v : Word) : (setSP v s).cpu.altH = s.cpu.altH := rfl
@[simp] theorem setSP_cpu_altL (v : Word) : (setSP v s).cpu.altL = s.cpu.altL := rfl
@[simp] theorem setSP_cpu_ix (v : Word) : (setSP v s).cpu.ix = s.cpu.ix := rfl
@[simp] theorem setSP_cpu_iy (v : Word) : (setSP v s).cpu.iy = s.cpu.iy := rfl
@[simp] theorem setSP_cpu_sp (v : Word) : (setSP v s).cpu.sp = v := rfl
@[simp] theorem setSP_cpu_pc (v : Word) : (setSP v s).cpu.pc = s.cpu.pc := rfl
@[simp] theorem setSP_cpu_i (v : Word) : (setSP v s).cpu.i = s.cpu.i := rfl
@[simp] theorem setSP_cpu_r (v : Word) : (setSP v s).cpu.r = s.cpu.r := rfl
@[simp] theorem setSP_cpu_im (v : Word) : (setSP v s).cpu.im = s.cpu.im := rfl
@[simp] theorem setSP_cpu_iff1 (v : Word) : (setSP v s).cpu.iff1 = s.cpu.iff1 := rfl
@[simp] theorem setSP_cpu_iff2 (v : Word) : (setSP v s).cpu.iff2 = s.cpu.iff2 := rfl
@[simp] theorem setSP_cpu_halted (v : Word) : (setSP v s).cpu.halted = s.cpu.halted := rfl
@[simp] theorem setSP_cpu_eiShadow (v : Word) : (setSP v s).cpu.eiShadow = s.cpu.eiShadow := rfl
@[simp] theorem setSP_cpu_intDeferred (v : Word) : (setSP v s).cpu.intDeferred = s.cpu.intDeferred := rfl
@[simp] theorem setSP_cpu_intCountdown (v : Word) : (setSP v s).cpu.intCountdown = s.cpu.intCountdown := rfl

/-! ### `incR` -/

@[simp] theorem incR_cfg : (incR s).cfg = s.cfg := rfl
@[simp] theorem incR_pc0 : (incR s).pc0 = s.pc0 := rfl
@[simp] theorem incR_tIns : (incR s).tIns = s.tIns := rfl
@[simp] theorem incR_tCall : (incR s).tCall = s.tCall := rfl
@[simp] theorem incR_tTotal : (incR s).tTotal = s.tTotal := rfl
@[simp] theorem incR_load : (incR s).load = s.load := rfl
@[simp] theorem incR_mem : (incR s).mem = s.mem := rfl
@[simp] theorem incR_slots : (incR s).slots = s.slots := rfl
@[simp] theorem incR_watch : (incR s).watch = s.watch := rfl
@[simp] theorem incR_activity : (incR s).activity = s.activity := rfl
@[simp] theorem incR_coverage : (incR s).coverage = s.coverage := rfl
@[simp] theorem incR_periph : (incR s).periph = s.periph := rfl
@[simp] theorem incR_script : (incR s).script = s.script := rfl
@[simp] theorem incR_ula : (incR s).ula = s.ula := rfl
@[simp] theorem incR_dbg : (incR s).dbg = s.dbg := rfl
@[simp] theorem incR_notices : (incR s).notices = s.notices := rfl
@[simp] theorem incR_failure : (incR s).failure = s.failure := rfl
@[simp] theorem incR_fault : (incR s).fault = s.fault := rfl
@[simp] theorem incR_draws : (incR s).draws = s.draws := rfl
@[simp] theorem incR_cpu_a : (incR s).cpu.a = s.cpu.a := rfl
@[simp] theorem incR_cpu_f : (incR s).cpu.f = s.cpu.f := rfl
@[simp] theorem incR_cpu_b : (incR s).cpu.b = s.cpu.b := rfl
@[simp] theorem incR_cpu_c : (incR s).cpu.c = s.cpu.c := rfl
@[simp] theorem incR_cpu_d : (incR s).cpu.d = s.cpu.d := rfl
@[simp] theorem incR_cpu_e : (incR s).cpu.e = s.cpu.e := rfl
@[simp] theorem incR_cpu_h : (incR s).cpu.h = s.cpu.h := rfl
@[simp] theorem incR_cpu_l : (incR s).cpu.l = s.cpu.l := rfl
@[simp] theorem incR_cpu_altA : (incR s).cpu.altA = s.cpu.altA := rfl
@[simp] theorem incR_cpu_altF : (incR s).cpu.altF = s.cpu.altF := rfl
@[simp] theorem incR_cpu_altB : (incR s).cpu.altB = s.cpu.altB := rfl
@[simp] theorem incR_cpu_altC : (incR s).cpu.altC = s.cpu.altC := rfl
@[simp] theorem incR_cpu_altD : (incR s).cpu.altD = s.cpu.altD := rfl
@[simp] theorem incR_cpu_altE : (incR s).cpu.altE = s.cpu.altE := rfl
@[simp] theorem incR_cpu_altH : (incR s).cpu.altH = s.cpu.altH := rfl
@[simp] theorem incR_cpu_altL : (incR s).cpu.altL = s.cpu.altL := rfl
@[simp] theorem incR_cpu_ix : (incR s).cpu.ix = s.cpu.ix := rfl
@[simp] theorem incR_cpu_iy : (incR s).cpu.iy = s.cpu.iy := rfl
@[simp] theorem incR_cpu_sp : (incR s).cpu.sp = s.cpu.sp := rfl
@[simp] theorem incR_cpu_pc : (incR s).cpu.pc = s.cpu.pc := rfl
@[simp] theorem incR_cpu_i : (incR s).cpu.i = s.cpu.i := rfl
@[simp] theorem incR_cpu_r : (incR s).cpu.r = nextR s.cpu.r := rfl
@[simp] theorem incR_cpu_im : (incR s).cpu.im = s.cpu.im := rfl
@[simp] theorem incR_cpu_iff1 : (incR s).cpu.iff1 = s.cpu.iff1 := rfl
@[simp] theorem incR_cpu_iff2 : (incR s).cpu.iff2 = s.cpu.iff2 := rfl
@[simp] theorem incR_cpu_halted : (incR s).cpu.halted = s.cpu.halted := rfl
@[simp] theorem incR_cpu_eiShadow : (incR s).cpu.eiShadow = s.cpu.eiShadow := rfl
@[simp] theorem incR_cpu_intDeferred : (incR s).cpu.intDeferred = s.cpu.intDeferred := rfl
@[simp] theorem incR_cpu_intCountdown : (incR s).cpu.intCountdown = s.cpu.intCountdown := rfl

/-! ### `disableInterrupts` -/

@[simp] theorem disableInterrupts_cfg (nmi : Bool) : (disableInterrupts nmi s).cfg = s.cfg := rfl
@[simp] theorem disableInterrupts_pc0 (nmi : Bool) : (disableInterrupts nmi s).pc0 = s.pc0 := rfl
@[simp] theorem disableInterrupts_tIns (nmi : Bool) : (disableInterrupts nmi s).tIns = s.tIns := rfl
@[simp] theorem disableInterrupts_tCall (nmi : Bool) : (disableInterrupts nmi s).tCall = s.tCall := rfl
@[simp] theorem disableInterrupts_tTotal (nmi : Bool) : (disableInterrupts nmi s).tTotal = s.tTotal := rfl
@[simp] theorem disableInterrupts_load (nmi : Bool) : (disableInterrupts nmi s).load = s.load := rfl
@[simp] theorem disableInterrupts_mem (nmi : Bool) : (disableInterrupts nmi s).mem = s.mem := rfl
@[simp] theorem disableInterrupts_slots (nmi : Bool) : (disableInterrupts nmi s).slots = s.slots := rfl
@[simp] theorem disableInterrupts_watch (nmi : Bool) : (disableInterrupts nmi s).watch = s.watch := rfl
@[simp] theorem disableInterrupts_activity (nmi : Bool) : (disableInterrupts nmi s).activity = s.activity := rfl
@[simp] theorem disableInterrupts_coverage (nmi : Bool) : (disableInterrupts nmi s).coverage = s.coverage := rfl
@[simp] theorem disableInterrupts_periph (nmi : Bool) : (disableInterrupts nmi s).periph = s.periph := rfl
@[simp] theorem disableInterrupts_script (nmi : Bool) : (disableInterrupts nmi s).script = s.script := rfl
@[simp] theorem disableInterrupts_ula (nmi : Bool) : (disableInterrupts nmi s).ula = s.ula := rfl
@[simp] theorem disableInterrupts_dbg (nmi : Bool) : (disableInterrupts nmi s).dbg = s.dbg := rfl
@[simp] theorem disableInterrupts_notices (nmi : Bool) : (disableInterrupts nmi s).notices = s.notices := rfl
@[simp] theorem disableInterrupts_failure (nmi : Bool) : (disableInterrupts nmi s).failure = s.failure := rfl
@[simp] theorem disableInterrupts_fault (nmi : Bool) : (disableInterrupts nmi s).fault = s.fault := rfl
@[simp] theorem disableInterrupts_draws (nmi : Bool) : (disableInterrupts nmi s).draws = s.draws := rfl
@[simp] theorem disableInterrupts_cpu_a (nmi : Bool) : (disableInterrupts nmi s).cpu.a = s.cpu.a := rfl
@[simp] theorem disableInterrupts_cpu_f (nmi : Bool) : (disableInterrupts nmi s).cpu.f = s.cpu.f := rfl
@[simp] theorem disableInterrupts_cpu_b (nmi : Bool) : (disableInterrupts nmi s).cpu.b = s.cpu.b := rfl
@[simp] theorem disableInterrupts_cpu_c (nmi : Bool) : (disableInterrupts nmi s).cpu.c = s.cpu.c := rfl
@[simp] theorem disableInterrupts_cpu_d (nmi : Bool) : (disableInterrupts nmi s).cpu.d = s.cpu.d := rfl
@[simp] theorem disableInterrupts_cpu_e (nmi : Bool) : (disableInterrupts nmi s).cpu.e = s.cpu.e := rfl
@[simp] theorem disableInterrupts_cpu_h (nmi : Bool) : (disableInterrupts nmi s).cpu.h = s.cpu.h := rfl
@[simp] theorem disableInterrupts_cpu_l (nmi : Bool) : (disableInterrupts nmi s).cpu.l = s.cpu.l := rfl
@[simp] theorem disableInterrupts_cpu_altA (nmi : Bool) : (disableInterrupts nmi s).cpu.altA = s.cpu.altA := rfl
@[simp] theorem disableInterrupts_cpu_altF (nmi : Bool) : (disableInterrupts nmi s).cpu.altF = s.cpu.altF := rfl
@[simp] theorem disableInterrupts_cpu_altB (nmi : Bool) : (disableInterrupts nmi s).cpu.altB = s.cpu.altB := rfl
@[simp] theorem disableInterrupts_cpu_altC (nmi : Bool) : (disableInterrupts nmi s).cpu.altC = s.cpu.altC := rfl
@[simp] theorem disableInterrupts_cpu_altD (nmi : Bool) : (disableInterrupts nmi s).cpu.altD = s.cpu.altD := rfl
@[simp] theorem disableInterrupts_cpu_altE (nmi : Bool) : (disableInterrupts nmi s).cpu.altE = s.cpu.altE := rfl
@[simp] theorem disableInterrupts_cpu_altH (nmi : Bool) : (disableInterrupts nmi s).cpu.altH = s.cpu.altH := rfl
@[simp] theorem disableInterrupts_cpu_altL (nmi : Bool) : (disableInterrupts nmi s).cpu.altL = s.cpu.altL := rfl
@[simp] theorem disableInterrupts_cpu_ix (nmi : Bool) : (disableInterrupts nmi s).cpu.ix = s.cpu.ix := rfl
@[simp] theorem disableInterrupts_cpu_iy (nmi : Bool) : (disableInterrupts nmi s).cpu.iy = s.cpu.iy := rfl
@[simp] theorem disableInterrupts_cpu_sp (nmi : Bool) : (disableInterrupts nmi s).cpu.sp = s.cpu.sp := rfl
@[simp] theorem disableInterrupts_cpu_pc (nmi : Bool) : (disableInterrupts nmi s).cpu.pc = s.cpu.pc := rfl
@[simp] theorem disableInterrupts_cpu_i (nmi : Bool) : (disableInterrupts nmi s).cpu.i = s.cpu.i := rfl
@[simp] theorem disableInterrupts_cpu_r (nmi : Bool) : (disableInterrupts nmi s).cpu.r = s.cpu.r := rfl
@[simp] theorem disableInterrupts_cpu_im (nmi : Bool) : (disableInterrupts nmi s).cpu.im = s.cpu.im := rfl
@[simp] theorem disableInterrupts_cpu_iff1 (nmi : Bool) : (disableInterrupts nmi s).cpu.iff1 = false := rfl
@[simp] theorem disableInterrupts_cpu_iff2 (nmi : Bool) : (disableInterrupts nmi s).cpu.iff2 = if nmi then s.cpu.iff2 else false := rfl
@[simp] theorem disableInterrupts_cpu_halted (nmi : Bool) : (disableInterrupts nmi s).cpu.halted = s.cpu.halted := rfl
@[simp] theorem disableInterrupts_cpu_eiShadow (nmi : Bool) : (disableInterrupts nmi s).cpu.eiShadow = s.cpu.eiShadow := rfl
@[simp] theorem disableInterrupts_cpu_intDeferred (nmi : Bool) : (disableInterrupts nmi s).cpu.intDeferred = s.cpu.intDeferred := rfl
@[simp] theorem disableInterrupts_cpu_intCountdown (nmi : Bool) : (disableInterrupts nmi s).cpu.intCountdown = s.cpu.intCountdown := rfl

/-! ### `setBC` -/

@[simp] theorem setBC_cfg (v : Word) : (setBC v s).cfg = s.cfg := rfl
@[simp] theorem setBC_pc0 (v : Word) : (setBC v s).pc0 = s.pc0 := rfl
@[simp] theorem setBC_tIns (v : Word) : (setBC v s).tIns = s.tIns := rfl
@[simp] theorem setBC_tCall (v : Word) : (setBC v s).tCall = s.tCall := rfl
@[simp] theorem setBC_tTotal (v : Word) : (setBC v s).tTotal = s.tTotal := rfl
@[simp] theorem setBC_load (v : Word) : (setBC v s).load = s.load := rfl
@[simp] theorem setBC_mem (v : Word) : (setBC v s).mem = s.mem := rfl
@[simp] theorem setBC_slots (v : Word) : (setBC v s).slots = s.slots := rfl
@[simp] theorem setBC_watch (v : Word) : (setBC v s).watch = s.watch := rfl
@[simp] theorem setBC_activity (v : Word) : (setBC v s).activity = s.activity := rfl
@[simp] theorem setBC_coverage (v : Word) : (setBC v s).coverage = s.coverage := rfl
@[simp] theorem setBC_periph (v : Word) : (setBC v s).periph = s.periph := rfl
@[simp] theorem setBC_script (v : Word) : (setBC v s).script = s.script := rfl
@[simp] theorem setBC_ula (v : Word) : (setBC v s).ula = s.ula := rfl
@[simp] theorem setBC_dbg (v : Word) : (setBC v s).dbg = s.dbg := rfl
@[simp] theorem setBC_notices (v : Word) : (setBC v s).notices = s.notices := rfl
@[simp] theorem setBC_failure (v : Word) : (setBC v s).failure = s.failure := rfl
@[simp] theorem setBC_fault (v : Word) : (setBC v s).fault = s.fault := rfl
@[simp] theorem setBC_draws (v : Word) : (setBC v s).draws = s.draws := rfl
@[simp] theorem setBC_cpu_a (v : Word) : (setBC v s).cpu.a = s.cpu.a := rfl
@[simp] theorem setBC_cpu_f (v : Word) : (setBC v s).cpu.f = s.cpu.f := rfl
@[simp] theorem setBC_cpu_b (v : Word) : (setBC v s).cpu.b = hiByte v := rfl
@[simp] theorem setBC_cpu_c (v : Word) : (setBC v s).cpu.c = loByte v := rfl
@[simp] theorem setBC_cpu_d (v : Word) : (setBC v s).cpu.d = s.cpu.d := rfl
@[simp] theorem setBC_cpu_e (v : Word) : (setBC v s).cpu.e = s.cpu.e := rfl
@[simp] theorem setBC_cpu_h (v : Word) : (setBC v s).cpu.h = s.cpu.h := rfl
@[simp] theorem setBC_cpu_l (v : Word) : (setBC v s).cpu.l = s.cpu.l := rfl
@[simp] theorem setBC_cpu_altA (v : Word) : (setBC v s).cpu.altA = s.cpu.altA := rfl
@[simp] theorem setBC_cpu_altF (v : Word) : (setBC v s).cpu.altF = s.cpu.altF := rfl
@[simp] theorem setBC_cpu_altB (v : Word) : (setBC v s).cpu.altB = s.cpu.altB := rfl
@[simp] theorem setBC_cpu_altC (v : Word) : (setBC v s).cpu.altC = s.cpu.altC := rfl
@[simp] theorem setBC_cpu_altD (v : Word) : (setBC v s).cpu.altD = s.cpu.altD := rfl
@[simp] theorem setBC_cpu_altE (v : Word) : (setBC v s).cpu.altE = s.cpu.altE := rfl
@[simp] theorem setBC_cpu_altH (v : Word) : (setBC v s).cpu.altH = s.cpu.altH := rfl
@[simp] theorem setBC_cpu_altL (v : Word) : (setBC v s).cpu.altL = s.cpu.altL := rfl
@[simp] theorem setBC_cpu_ix (v : Word) : (setBC v s).cpu.ix = s.cpu.ix := rfl
@[simp] theorem setBC_cpu_iy (v : Word) : (setBC v s).cpu.iy = s.cpu.iy := rfl
@[simp] theorem setBC_cpu_sp (v : Word) : (setBC v s).cpu.sp = s.cpu.sp := rfl
@[simp] theorem setBC_cpu_pc (v : Word) : (setBC v s).cpu.pc = s.cpu.pc := rfl
@[simp] theorem setBC_cpu_i (v : Word) : (setBC v s).cpu.i = s.cpu.i := rfl
@[simp] theorem setBC_cpu_r (v : Word) : (setBC v s).cpu.r = s.cpu.r := rfl
@[simp] theorem setBC_cpu_im (v : Word) : (setBC v s).cpu.im = s.cpu.im := rfl
@[simp] theorem setBC_cpu_iff1 (v : Word) : (setBC v s).cpu.iff1 = s.cpu.iff1 := rfl
@[simp] theorem setBC_cpu_iff2 (v : Word) : (setBC v s).cpu.iff2 = s.cpu.iff2 := rfl
@[simp] theorem setBC_cpu_halted (v : Word) : (setBC v s).cpu.halted = s.cpu.halted := rfl
@[simp] theorem setBC_cpu_eiShadow (v : Word) : (setBC v s).cpu.eiShadow = s.cpu.eiShadow := rfl
@[simp] theorem setBC_cpu_intDeferred (v : Word) : (setBC v s).cpu.intDeferred = s.cpu.intDeferred := rfl
@[simp] theorem setBC_cpu_intCountdown (v : Word) : (setBC v s).cpu.intCountdown = s.cpu.intCountdown := rfl

/-! ### `setDE` -/

@[simp] theorem setDE_cfg (v : Word) : (setDE v s).cfg = s.cfg := rfl
@[simp] theorem setDE_pc0 (v : Word) : (setDE v s).pc0 = s.pc0 := rfl
@[simp] theorem setDE_tIns (v : Word) : (setDE v s).tIns = s.tIns := rfl
@[simp] theorem setDE_tCall (v : Word) : (setDE v s).tCall = s.tCall := rfl
@[simp] theorem setDE_tTotal (v : Word) : (setDE v s).tTotal = s.tTotal := rfl
@[simp] theorem setDE_load (v : Word) : (setDE v s).load = s.load := rfl
@[simp] theorem setDE_mem (v : Word) : (setDE v s).mem = s.mem := rfl
@[simp] theorem setDE_slots (v : Word) : (setDE v s).slots = s.slots := rfl
@[simp] theorem setDE_watch (v : Word) : (setDE v s).watch = s.watch := rfl
@[simp] theorem setDE_activity (v : Word) : (setDE v s).activity = s.activity := rfl
@[simp] theorem setDE_coverage (v : Word) : (setDE v s).coverage = s.coverage := rfl
@[simp] theorem setDE_periph (v : Word) : (setDE v s).periph = s.periph := rfl
@[simp] theorem setDE_script (v : Word) : (setDE v s).script = s.script := rfl
@[simp] theorem setDE_ula (v : Word) : (setDE v s).ula = s.ula := rfl
@[simp] theorem setDE_dbg (v : Word) : (setDE v s).dbg = s.dbg := rfl
@[simp] theorem setDE_notices (v : Word) : (setDE v s).notices = s.notices := rfl
@[simp] theorem setDE_failure (v : Word) : (setDE v s).failure = s.failure := rfl
@[simp] theorem setDE_fault (v : Word) : (setDE v s).fault = s.fault := rfl
@[simp] theorem setDE_draws (v : Word) : (setDE v s).draws = s.draws := rfl
@[simp] theorem setDE_cpu_a (v : Word) : (setDE v s).cpu.a = s.cpu.a := rfl
@[simp] theorem setDE_cpu_f (v : Word) : (setDE v s).cpu.f = s.cpu.f := rfl
@[simp] theorem setDE_cpu_b (v : Word) : (setDE v s).cpu.b = s.cpu.b := rfl
@[simp] theorem setDE_cpu_c (v : Word) : (setDE v s).cpu.c = s.cpu.c := rfl
@[simp] theorem setDE_cpu_d (v : Word) : (setDE v s).cpu.d = hiByte v := rfl
@[simp] theorem setDE_cpu_e (v : Word) : (setDE v s).cpu.e = loByte v := rfl
@[simp] theorem setDE_cpu_h (v : Word) : (setDE v s).cpu.h = s.cpu.h := rfl
@[simp] theorem setDE_cpu_l (v : Word) : (setDE v s).cpu.l = s.cpu.l := rfl
@[simp] theorem setDE_cpu_altA (v : Word) : (setDE v s).cpu.altA = s.cpu.altA := rfl
@[simp] theorem setDE_cpu_altF (v : Word) : (setDE v s).cpu.altF = s.cpu.altF := rfl
@[simp] theorem setDE_cpu_altB (v : Word) : (setDE v s).cpu.altB = s.cpu.altB := rfl
@[simp] theorem setDE_cpu_altC (v : Word) : (setDE v s).cpu.altC = s.cpu.altC := rfl
@[simp] theorem setDE_cpu_altD (v : Word) : (setDE v s).cpu.altD = s.cpu.altD := rfl
@[simp] theorem setDE_cpu_altE (v : Word) : (setDE v s).cpu.altE = s.cpu.altE := rfl
@[simp] theorem setDE_cpu_altH (v : Word) : (setDE v s).cpu.altH = s.cpu.altH := rfl
@[simp] theorem setDE_cpu_altL (v : Word) : (setDE v s).cpu.altL = s.cpu.altL := rfl
@[simp] theorem setDE_cpu_ix (v : Word) : (setDE v s).cpu.ix = s.cpu.ix := rfl
@[simp] theorem setDE_cpu_iy (v : Word) : (setDE v s).cpu.iy = s.cpu.iy := rfl
@[simp] theorem setDE_cpu_sp (v : Word) : (setDE v s).cpu.sp = s.cpu.sp := rfl
@[simp] theorem setDE_cpu_pc (v : Word) : (setDE v s).cpu.pc = s.cpu.pc := rfl
@[simp] theorem setDE_cpu_i (v : Word) : (setDE v s).cpu.i = s.cpu.i := rfl
@[simp] theorem setDE_cpu_r (v : Word) : (setDE v s).cpu.r = s.cpu.r := rfl
@[simp] theorem setDE_cpu_im (v : Word) : (setDE v s).cpu.im = s.cpu.im := rfl
@[simp] theorem setDE_cpu_iff1 (v : Word) : (setDE v s).cpu.iff1 = s.cpu.iff1 := rfl
@[simp] theorem setDE_cpu_iff2 (v : Word) : (setDE v s).cpu.iff2 = s.cpu.iff2 := rfl
@[simp] theorem setDE_cpu_halted (v : Word) : (setDE v s).cpu.halted = s.cpu.halted := rfl
@[simp] theorem setDE_cpu_eiShadow (v : Word) : (setDE v s).cpu.eiShadow = s.cpu.eiShadow := rfl
@[simp] theorem setDE_cpu_intDeferred (v : Word) : (setDE v s).cpu.intDeferred = s.cpu.intDeferred := rfl
@[simp] theorem setDE_cpu_intCountdown (v : Word) : (setDE v s).cpu.intCountdown = s.cpu.intCountdown := rfl

/-! ### `setHL` -/

@[simp] theorem setHL_cfg (v : Word) : (setHL v s).cfg = s.cfg := rfl
@[simp] theorem setHL_pc0 (v : Word) : (setHL v s).pc0 = s.pc0 := rfl
@[simp] theorem setHL_tIns (v : Word) : (setHL v s).tIns = s.tIns := rfl
@[simp] theorem setHL_tCall (v : Word) : (setHL v s).tCall = s.tCall := rfl
@[simp] theorem setHL_tTotal (v : Word) : (setHL v s).tTotal = s.tTotal := rfl
@[simp] theorem setHL_load (v : Word) : (setHL v s).load = s.load := rfl
@[simp] theorem setHL_mem (v : Word) : (setHL v s).mem = s.mem := rfl
@[simp] theorem setHL_slots (v : Word) : (setHL v s).slots = s.slots := rfl
@[simp] theorem setHL_watch (v : Word) : (setHL v s).watch = s.watch := rfl
@[simp] theorem setHL_activity (v : Word) : (setHL v s).activity = s.activity := rfl
@[simp] theorem setHL_coverage (v : Word) : (setHL v s).coverage = s.coverage := rfl
@[simp] theorem setHL_periph (v : Word) : (setHL v s).periph = s.periph := rfl
@[simp] theorem setHL_script (v : Word) : (setHL v s).script = s.script := rfl
@[simp] theorem setHL_ula (v : Word) : (setHL v s).ula = s.ula := rfl
@[simp] theorem setHL_dbg (v : Word) : (setHL v s).dbg = s.dbg := rfl
@[simp] theorem setHL_notices (v : Word) : (setHL v s).notices = s.notices := rfl
@[simp] theorem setHL_failure (v : Word) : (setHL v s).failure = s.failure := rfl
@[simp] theorem setHL_fault (v : Word) : (setHL v s).fault = s.fault := rfl
@[simp] theorem setHL_draws (v : Word) : (setHL v s).draws = s.draws := rfl
@[simp] theorem setHL_cpu_a (v : Word) : (setHL v s).cpu.a = s.cpu.a := rfl
@[simp] theorem setHL_cpu_f (v : Word) : (setHL v s).cpu.f = s.cpu.f := rfl
@[simp] theorem setHL_cpu_b (v : Word) : (setHL v s).cpu.b = s.cpu.b := rfl
@[simp] theorem setHL_cpu_c (v : Word) : (setHL v s).cpu.c = s.cpu.c := rfl
@[simp] theorem setHL_cpu_d (v : Word) : (setHL v s).cpu.d = s.cpu.d := rfl
@[simp] theorem setHL_cpu_e (v : Word) : (setHL v s).cpu.e = s.cpu.e := rfl
@[simp] theorem setHL_cpu_h (v : Word) : (setHL v s).cpu.h = hiByte v := rfl
@[simp] theorem setHL_cpu_l (v : Word) : (setHL v s).cpu.l = loByte v := rfl
@[simp] theorem setHL_cpu_altA (v : Word) : (setHL v s).cpu.altA = s.cpu.altA := rfl
@[simp] theorem setHL_cpu_altF (v : Word) : (setHL v s).cpu.altF = s.cpu.altF := rfl
@[simp] theorem setHL_cpu_altB (v : Word) : (setHL v s).cpu.altB = s.cpu.altB := rfl
@[simp] theorem setHL_cpu_altC (v : Word) : (setHL v s).cpu.altC = s.cpu.altC := rfl
@[simp] theorem setHL_cpu_altD (v : Word) : (setHL v s).cpu.altD = s.cpu.altD := rfl
@[simp] theorem setHL_cpu_altE (v : Word) : (setHL v s).cpu.altE = s.cpu.altE := rfl
@[simp] theorem setHL_cpu_altH (v : Word) : (setHL v s).cpu.altH = s.cpu.altH := rfl
@[simp] theorem setHL_cpu_altL (v : Word) : (setHL v s).cpu.altL = s.cpu.altL := rfl
@[simp] theorem setHL_cpu_ix (v : Word) : (setHL v s).cpu.ix = s.cpu.ix := rfl
@[simp] theorem setHL_cpu_iy (v : Word) : (setHL v s).cpu.iy = s.cpu.iy := rfl
@[simp] theorem setHL_cpu_sp (v : Word) : (setHL v s).cpu.sp = s.cpu.sp := rfl
@[simp] theorem setHL_cpu_pc (v : Word) : (setHL v s).cpu.pc = s.cpu.pc := rfl
@[simp] theorem setHL_cpu_i (v : Word) : (setHL v s).cpu.i = s.cpu.i := rfl
@[simp] theorem setHL_cpu_r (v : Word) : (setHL v s).cpu.r = s.cpu.r := rfl
@[simp] theorem setHL_cpu_im (v : Word) : (setHL v s).cpu.im = s.cpu.im := rfl
@[simp] theorem setHL_cpu_iff1 (v : Word) : (setHL v s).cpu.iff1 = s.cpu.iff1 := rfl
@[simp] theorem setHL_cpu_iff2 (v : Word) : (setHL v s).cpu.iff2 = s.cpu.iff2 := rfl
@[simp] theorem setHL_cpu_halted (v : Word) : (setHL v s).cpu.halted = s.cpu.halted := rfl
@[simp] theorem setHL_cpu_eiShadow (v : Word) : (setHL v s).cpu.eiShadow = s.cpu.eiShadow := rfl
@[simp] theorem setHL_cpu_intDeferred (v : Word) : (setHL v s).cpu.intDeferred = s.cpu.intDeferred := rfl
@[simp] theorem setHL_cpu_intCountdown (v : Word) : (setHL v s).cpu.intCountdown = s.cpu.intCountdown := rfl

/-! ### `setAF` -/

@[simp] theorem setAF_cfg (v : Word) : (setAF v s).cfg = s.cfg := rfl
@[simp] theorem setAF_pc0 (v : Word) : (setAF v s).pc0 = s.pc0 := rfl
@[simp] theorem setAF_tIns (v : Word) : (setAF v s).tIns = s.tIns := rfl
@[simp] theorem setAF_tCall (v : Word) : (setAF v s).tCall = s.tCall := rfl
@[simp] theorem setAF_tTotal (v : Word) : (setAF v s).tTotal = s.tTotal := rfl
@[simp] theorem setAF_load (v : Word) : (setAF v s).load = s.load := rfl
@[simp] theorem setAF_mem (v : Word) : (setAF v s).mem = s.mem := rfl
@[simp] theorem setAF_slots (v : Word) : (setAF v s).slots = s.slots := rfl
@[simp] theorem setAF_watch (v : Word) : (setAF v s).watch = s.watch := rfl
@[simp] theorem setAF_activity (v : Word) : (setAF v s).activity = s.activity := rfl
@[simp] theorem setAF_coverage (v : Word) : (setAF v s).coverage = s.coverage := rfl
@[simp] theorem setAF_periph (v : Word) : (setAF v s).periph = s.periph := rfl
@[simp] theorem setAF_script (v : Word) : (setAF v s).script = s.script := rfl
@[simp] theorem setAF_ula (v : Word) : (setAF v s).ula = s.ula := rfl
@[simp] theorem setAF_dbg (v : Word) : (setAF v s).dbg = s.dbg := rfl
@[simp] theorem setAF_notices (v : Word) : (setAF v s).notices = s.notices := rfl
@[simp] theorem setAF_failure (v : Word) : (setAF v s).failure = s.failure := rfl
@[simp] theorem setAF_fault (v : Word) : (setAF v s).fault = s.fault := rfl
@[simp] theorem setAF_draws (v : Word) : (setAF v s).draws = s.draws := rfl
@[simp] theorem setAF_cpu_a (v : Word) : (setAF v s).cpu.a = hiByte v := rfl
@[simp] theorem setAF_cpu_f (v : Word) : (setAF v s).cpu.f = Flags.ofByte (loByte v) := rfl
@[simp] theorem setAF_cpu_b (v : Word) : (setAF v s).cpu.b = s.cpu.b := rfl
@[simp] theorem setAF_cpu_c (v : Word) : (setAF v s).cpu.c = s.cpu.c := rfl
@[simp] theorem setAF_cpu_d (v : Word) : (setAF v s).cpu.d = s.cpu.d := rfl
@[simp] theorem setAF_cpu_e (v : Word) : (setAF v s).cpu.e = s.cpu.e := rfl
@[simp] theorem setAF_cpu_h (v : Word) : (setAF v s).cpu.h = s.cpu.h := rfl
@[simp] theorem setAF_cpu_l (v : Word) : (setAF v s).cpu.l = s.cpu.l := rfl
@[simp] theorem setAF_cpu_altA (v : Word) : (setAF v s).cpu.altA = s.cpu.altA := rfl
@[simp] theorem setAF_cpu_altF (v : Word) : (setAF v s).cpu.altF = s.cpu.altF := rfl
@[simp] theorem setAF_cpu_altB (v : Word) : (setAF v s).cpu.altB = s.cpu.altB := rfl
@[simp] theorem setAF_cpu_altC (v : Word) : (setAF v s).cpu.altC = s.cpu.altC := rfl
@[simp] theorem setAF_cpu_altD (v : Word) : (setAF v s).cpu.altD = s.cpu.altD := rfl
@[simp] theorem setAF_cpu_altE (v : Word) : (setAF v s).cpu.altE = s.cpu.altE := rfl
@[simp] theorem setAF_cpu_altH (v : Word) : (setAF v s).cpu.altH = s.cpu.altH := rfl
@[simp] theorem setAF_cpu_altL (v : Word) : (setAF v s).cpu.altL = s.cpu.altL := rfl
@[simp] theorem setAF_cpu_ix (v : Word) : (setAF v s).cpu.ix = s.cpu.ix := rfl
@[simp] theorem setAF_cpu_iy (v : Word) : (setAF v s).cpu.iy = s.cpu.iy := rfl
@[simp] theorem setAF_cpu_sp (v : Word) : (setAF v s).cpu.sp = s.cpu.sp := rfl
@[simp] theorem setAF_cpu_pc (v : Word) : (setAF v s).cpu.pc = s.cpu.pc := rfl
@[simp] theorem setAF_cpu_i (v : Word) : (setAF v s).cpu.i = s.cpu.i := rfl
@[simp] theorem setAF_cpu_r (v : Word) : (setAF v s).cpu.r = s.cpu.r := rfl
@[simp] theorem setAF_cpu_im (v : Word) : (setAF v s).cpu.im = s.cpu.im := rfl
@[simp] theorem setAF_cpu_iff1 (v : Word) : (setAF v s).cpu.iff1 = s.cpu.iff1 := rfl
@[simp] theorem setAF_cpu_iff2 (v : Word) : (setAF v s).cpu.iff2 = s.cpu.iff2 := rfl
@[simp] theorem setAF_cpu_halted (v : Word) : (setAF v s).cpu.halted = s.cpu.halted := rfl
@[simp] theorem setAF_cpu_eiShadow (v : Word) : (setAF v s).cpu.eiShadow = s.cpu.eiShadow := rfl
@[simp] theorem setAF_cpu_intDeferred (v : Word) : (setAF v s).cpu.intDeferred = s.cpu.intDeferred := rfl
@[simp] theorem setAF_cpu_intCountdown (v : Word) : (setAF v s).cpu.intCountdown = s.cpu.intCountdown := rfl

/-! ### `setIX` -/

@[simp] theorem setIX_cfg (v : Word) : (setIX v s).cfg = s.cfg := rfl
@[simp] theorem setIX_pc0 (v : Word) : (setIX v s).pc0 = s.pc0 := rfl
@[simp] theorem setIX_tIns (v : Word) : (setIX v s).tIns = s.tIns := rfl
@[simp] theorem setIX_tCall (v : Word) : (setIX v s).tCall = s.tCall := rfl
@[simp] theorem setIX_tTotal (v : Word) : (setIX v s).tTotal = s.tTotal := rfl
@[simp] theorem setIX_load (v : Word) : (setIX v s).load = s.load := rfl
@[simp] theorem setIX_mem (v : Word) : (setIX v s).mem = s.mem := rfl
@[simp] theorem setIX_slots (v : Word) : (setIX v s).slots = s.slots := rfl
@[simp] theorem setIX_watch (v : Word) : (setIX v s).watch = s.watch := rfl
@[simp] theorem setIX_activity (v : Word) : (setIX v s).activity = s.activity := rfl
@[simp] theorem setIX_coverage (v : Word) : (setIX v s).coverage = s.coverage := rfl
@[simp] theorem setIX_periph (v : Word) : (setIX v s).periph = s.periph := rfl
@[simp] theorem setIX_script (v : Word) : (setIX v s).script = s.script := rfl
@[simp] theorem setIX_ula (v : Word) : (setIX v s).ula = s.ula := rfl
@[simp] theorem setIX_dbg (v : Word) : (setIX v s).dbg = s.dbg := rfl
@[simp] theorem setIX_notices (v : Word) : (setIX v s).notices = s.notices := rfl
@[simp] theorem setIX_failure (v : Word) : (setIX v s).failure = s.failure := rfl
@[simp] theorem setIX_fault (v : Word) : (setIX v s).fault = s.fault := rfl
@[simp] theorem setIX_draws (v : Word) : (setIX v s).draws = s.draws := rfl
@[simp] theorem setIX_cpu_a (v : Word) : (setIX v s).cpu.a = s.cpu.a := rfl
@[simp] theorem setIX_cpu_f (v : Word) : (setIX v s).cpu.f = s.cpu.f := rfl
@[simp] theorem setIX_cpu_b (v : Word) : (setIX v s).cpu.b = s.cpu.b := rfl
@[simp] theorem setIX_cpu_c (v : Word) : (setIX v s).cpu.c = s.cpu.c := rfl
@[simp] theorem setIX_cpu_d (v : Word) : (setIX v s).cpu.d = s.cpu.d := rfl
@[simp] theorem setIX_cpu_e (v : Word) : (setIX v s).cpu.e = s.cpu.e := rfl
@[simp] theorem setIX_cpu_h (v : Word) : (setIX v s).cpu.h = s.cpu.h := rfl
@[simp] theorem setIX_cpu_l (v : Word) : (setIX v s).cpu.l = s.cpu.l := rfl
@[simp] theorem setIX_cpu_altA (v : Word) : (setIX v s).cpu.altA = s.cpu.altA := rfl
@[simp] theorem setIX_cpu_altF (v : Word) : (setIX v s).cpu.altF = s.cpu.altF := rfl
@[simp] theorem setIX_cpu_altB (v : Word) : (setIX v s).cpu.altB = s.cpu.altB := rfl
@[simp] theorem setIX_cpu_altC (v : Word) : (setIX v s).cpu.altC = s.cpu.altC := rfl
@[simp] theorem setIX_cpu_altD (v : Word) : (setIX v s).cpu.altD = s.cpu.altD := rfl
@[simp] theorem setIX_cpu_altE (v : Word) : (setIX v s).cpu.altE = s.cpu.altE := rfl
@[simp] theorem setIX_cpu_altH (v : Word) : (setIX v s).cpu.altH = s.cpu.altH := rfl
@[simp] theorem setIX_cpu_altL (v : Word) : (setIX v s).cpu.altL = s.cpu.altL := rfl
@[simp] theorem setIX_cpu_ix (v : Word) : (setIX v s).cpu.ix = v := rfl
@[simp] theorem setIX_cpu_iy (v : Word) : (setIX v s).cpu.iy = s.cpu.iy := rfl
@[simp] theorem setIX_cpu_sp (v : Word) : (setIX v s).cpu.sp = s.cpu.sp := rfl
@[simp] theorem setIX_cpu_pc (v : Word) : (setIX v s).cpu.pc = s.cpu.pc := rfl
@[simp] theorem setIX_cpu_i (v : Word) : (setIX v s).cpu.i = s.cpu.i := rfl
@[simp] theorem setIX_cpu_r (v : Word) : (setIX v s).cpu.r = s.cpu.r := rfl
@[simp] theorem setIX_cpu_im (v : Word) : (setIX v s).cpu.im = s.cpu.im := rfl
@[simp] theorem setIX_cpu_iff1 (v : Word) : (setIX v s).cpu.iff1 = s.cpu.iff1 := rfl
@[simp] theorem setIX_cpu_iff2 (v : Word) : (setIX v s).cpu.iff2 = s.cpu.iff2 := rfl
@[simp] theorem setIX_cpu_halted (v : Word) : (setIX v s).cpu.halted = s.cpu.halted := rfl
@[simp] theorem setIX_cpu_eiShadow (v : Word) : (setIX v s).cpu.eiShadow = s.cpu.eiShadow := rfl
@[simp] theorem setIX_cpu_intDeferred (v : Word) : (setIX v s).cpu.intDeferred = s.cpu.intDeferred := rfl
@[simp] theorem setIX_cpu_intCountdown (v : Word) : (setIX v s).cpu.intCountdown = s.cpu.intCountdown := rfl

/-! ### `setIY` -/

@[simp] theorem setIY_cfg (v : Word) : (setIY v s).cfg = s.cfg := rfl
@[simp] theorem setIY_pc0 (v : Word) : (setIY v s).pc0 = s.pc0 := rfl
@[simp] theorem setIY_tIns (v : Word) : (setIY v s).tIns = s.tIns := rfl
@[simp] theorem setIY_tCall (v : Word) : (setIY v s).tCall = s.tCall := rfl
@[simp] theorem setIY_tTotal (v : Word) : (setIY v s).tTotal = s.tTotal := rfl
@[simp] theorem setIY_load (v : Word) : (setIY v s).load = s.load := rfl
@[simp] theorem setIY_mem (v : Word) : (setIY v s).mem = s.mem := rfl
@[simp] theorem setIY_slots (v : Word) : (setIY v s).slots = s.slots := rfl
@[simp] theorem setIY_watch (v : Word) : (setIY v s).watch = s.watch := rfl
@[simp] theorem setIY_activity (v : Word) : (setIY v s).activity = s.activity := rfl
@[simp] theorem setIY_coverage (v : Word) : (setIY v s).coverage = s.coverage := rfl
@[simp] theorem setIY_periph (v : Word) : (setIY v s).periph = s.periph := rfl
@[simp] theorem setIY_script (v : Word) : (setIY v s).script = s.script := rfl
@[simp] theorem setIY_ula (v : Word) : (setIY v s).ula = s.ula := rfl
@[simp] theorem setIY_dbg (v : Word) : (setIY v s).dbg = s.dbg := rfl
@[simp] theorem setIY_notices (v : Word) : (setIY v s).notices = s.notices := rfl
@[simp] theorem setIY_failure (v : Word) : (setIY v s).failure = s.failure := rfl
@[simp] theorem setIY_fault (v : Word) : (setIY v s).fault = s.fault := rfl
@[simp] theorem setIY_draws (v : Word) : (setIY v s).draws = s.draws := rfl
@[simp] theorem setIY_cpu_a (v : Word) : (setIY v s).cpu.a = s.cpu.a := rfl
@[simp] theorem setIY_cpu_f (v : Word) : (setIY v s).cpu.f = s.cpu.f := rfl
@[simp] theorem setIY_cpu_b (v : Word) : (setIY v s).cpu.b = s.cpu.b := rfl
@[simp] theorem setIY_cpu_c (v : Word) : (setIY v s).cpu.c = s.cpu.c := rfl
@[simp] theorem setIY_cpu_d (v : Word) : (setIY v s).cpu.d = s.cpu.d := rfl
@[simp] theorem setIY_cpu_e (v : Word) : (setIY v s).cpu.e = s.cpu.e := rfl
@[simp] theorem setIY_cpu_h (v : Word) : (setIY v s).cpu.h = s.cpu.h := rfl
@[simp] theorem setIY_cpu_l (v : Word) : (setIY v s).cpu.l = s.cpu.l := rfl
@[simp] theorem setIY_cpu_altA (v : Word) : (setIY v s).cpu.altA = s.cpu.altA := rfl
@[simp] theorem setIY_cpu_altF (v : Word) : (setIY v s).cpu.altF = s.cpu.altF := rfl
@[simp] theorem setIY_cpu_altB (v : Word) : (setIY v s).cpu.altB = s.cpu.altB := rfl
@[simp] theorem setIY_cpu_altC (v : Word) : (setIY v s).cpu.altC = s.cpu.altC := rfl
@[simp] theorem setIY_cpu_altD (v : Word) : (setIY v s).cpu.altD = s.cpu.altD := rfl
@[simp] theorem setIY_cpu_altE (v : Word) : (setIY v s).cpu.altE = s.cpu.altE := rfl
@[simp] theorem setIY_cpu_altH (v : Word) : (setIY v s).cpu.altH = s.cpu.altH := rfl
@[simp] theorem setIY_cpu_altL (v : Word) : (setIY v s).cpu.altL = s.cpu.altL := rfl
@[simp] theorem setIY_cpu_ix (v : Word) : (setIY v s).cpu.ix = s.cpu.ix := rfl
@[simp] theorem setIY_cpu_iy (v : Word) : (setIY v s).cpu.iy = v := rfl
@[simp] theorem setIY_cpu_sp (v : Word) : (setIY v s).cpu.sp = s.cpu.sp := rfl
@[simp] theorem setIY_cpu_pc (v : Word) : (setIY v s).cpu.pc = s.cpu.pc := rfl
@[simp] theorem setIY_cpu_i (v : Word) : (setIY v s).cpu.i = s.cpu.i := rfl
@[simp] theorem setIY_cpu_r (v : Word) : (setIY v s).cpu.r = s.cpu.r := rfl
@[simp] theorem setIY_cpu_im (v : Word) : (setIY v s).cpu.im = s.cpu.im := rfl
@[simp] theorem setIY_cpu_iff1 (v : Word) : (setIY v s).cpu.iff1 = s.cpu.iff1 := rfl
@[simp] theorem setIY_cpu_iff2 (v : Word) : (setIY v s).cpu.iff2 = s.cpu.iff2 := rfl
@[simp] theorem setIY_cpu_halted (v : Word) : (setIY v s).cpu.halted = s.cpu.halted := rfl
@[simp] theorem setIY_cpu_eiShadow (v : Word) : (setIY v s).cpu.eiShadow = s.cpu.eiShadow := rfl
@[simp] theorem setIY_cpu_intDeferred (v : Word) : (setIY v s).cpu.intDeferred = s.cpu.intDeferred := rfl
@[simp] theorem setIY_cpu_intCountdown (v : Word) : (setIY v s).cpu.intCountdown = s.cpu.intCountdown := rfl

/-! ### `setA` -/

@[simp] theorem setA_cfg (v : Byte) : (setA v s).cfg = s.cfg := rfl
@[simp] theorem setA_pc0 (v : Byte) : (setA v s).pc0 = s.pc0 := rfl
@[simp] theorem setA_tIns (v : Byte) : (setA v s).tIns = s.tIns := rfl
@[simp] theorem setA_tCall (v : Byte) : (setA v s).tCall = s.tCall := rfl
@[simp] theorem setA_tTotal (v : Byte) : (setA v s).tTotal = s.tTotal := rfl
@[simp] theorem setA_load (v : Byte) : (setA v s).load = s.load := rfl
@[simp] theorem setA_mem (v : Byte) : (setA v s).mem = s.mem := rfl
@[simp] theorem setA_slots (v : Byte) : (setA v s).slots = s.slots := rfl
@[simp] theorem setA_watch (v : Byte) : (setA v s).watch = s.watch := rfl
@[simp] theorem setA_activity (v : Byte) : (setA v s).activity = s.activity := rfl
@[simp] theorem setA_coverage (v : Byte) : (setA v s).coverage = s.coverage := rfl
@[simp] theorem setA_periph (v : Byte) : (setA v s).periph = s.periph := rfl
@[simp] theorem setA_script (v : Byte) : (setA v s).script = s.script := rfl
@[simp] theorem setA_ula (v : Byte) : (setA v s).ula = s.ula := rfl
@[simp] theorem setA_dbg (v : Byte) : (setA v s).dbg = s.dbg := rfl
@[simp] theorem setA_notices (v : Byte) : (setA v s).notices = s.notices := rfl
@[simp] theorem setA_failure (v : Byte) : (setA v s).failure = s.failure := rfl
@[simp] theorem setA_fault (v : Byte) : (setA v s).fault = s.fault := rfl
@[simp] theorem setA_draws (v : Byte) : (setA v s).draws = s.draws := rfl
@[simp] theorem setA_cpu_a (v : Byte) : (setA v s).cpu.a = v := rfl
@[simp] theorem setA_cpu_f (v : Byte) : (setA v s).cpu.f = s.cpu.f := rfl
@[simp] theorem setA_cpu_b (v : Byte) : (setA v s).cpu.b = s.cpu.b := rfl
@[simp] theorem setA_cpu_c (v : Byte) : (setA v s).cpu.c = s.cpu.c := rfl
@[simp] theorem setA_cpu_d (v : Byte) : (setA v s).cpu.d = s.cpu.d := rfl
@[simp] theorem setA_cpu_e (v : Byte) : (setA v s).cpu.e = s.cpu.e := rfl
@[simp] theorem setA_cpu_h (v : Byte) : (setA v s).cpu.h = s.cpu.h := rfl
@[simp] theorem setA_cpu_l (v : Byte) : (setA v s).cpu.l = s.cpu.l := rfl
@[simp] theorem setA_cpu_altA (v : Byte) : (setA v s).cpu.altA = s.cpu.altA := rfl
@[simp] theorem setA_cpu_altF (v : Byte) : (setA v s).cpu.altF = s.cpu.altF := rfl
@[simp] theorem setA_cpu_altB (v : Byte) : (setA v s).cpu.altB = s.cpu.altB := rfl
@[simp] theorem setA_cpu_altC (v : Byte) : (setA v s).cpu.altC = s.cpu.altC := rfl
@[simp] theorem setA_cpu_altD (v : Byte) : (setA v s).cpu.altD = s.cpu.altD := rfl
@[simp] theorem setA_cpu_altE (v : Byte) : (setA v s).cpu.altE = s.cpu.altE := rfl
@[simp] theorem setA_cpu_altH (v : Byte) : (setA v s).cpu.altH = s.cpu.altH := rfl
@[simp] theorem setA_cpu_altL (v : Byte) : (setA v s).cpu.altL = s.cpu.altL := rfl
@[simp] theorem setA_cpu_ix (v : Byte) : (setA v s).cpu.ix = s.cpu.ix := rfl
@[simp] theorem setA_cpu_iy (v : Byte) : (setA v s).cpu.iy = s.cpu.iy := rfl
@[simp] theorem setA_cpu_sp (v : Byte) : (setA v s).cpu.sp = s.cpu.sp := rfl
@[simp] theorem setA_cpu_pc (v : Byte) : (setA v s).cpu.pc = s.cpu.pc := rfl
@[simp] theorem setA_cpu_i (v : Byte) : (setA v s).cpu.i = s.cpu.i := rfl
@[simp] theorem setA_cpu_r (v : Byte) : (setA v s).cpu.r = s.cpu.r := rfl
@[simp] theorem setA_cpu_im (v : Byte) : (setA v s).cpu.im = s.cpu.im := rfl
@[simp] theorem setA_cpu_iff1 (v : Byte) : (setA v s).cpu.iff1 = s.cpu.iff1 := rfl
@[simp] theorem setA_cpu_iff2 (v : Byte) : (setA v s).cpu.iff2 = s.cpu.iff2 := rfl
@[simp] theorem setA_cpu_halted (v : Byte) : (setA v s).cpu.halted = s.cpu.halted := rfl
@[simp] theorem setA_cpu_eiShadow (v : Byte) : (setA v s).cpu.eiShadow = s.cpu.eiShadow := rfl
@[simp] theorem setA_cpu_intDeferred (v : Byte) : (setA v s).cpu.intDeferred = s.cpu.intDeferred := rfl
@[simp] theorem setA_cpu_intCountdown (v : Byte) : (setA v s).cpu.intCountdown = s.cpu.intCountdown := rfl

/-! ### `setB` -/

@[simp] theorem setB_cfg (v : Byte) : (setB v s).cfg = s.cfg := rfl
@[simp] theorem setB_pc0 (v : Byte) : (setB v s).pc0 = s.pc0 := rfl
@[simp] theorem setB_tIns (v : Byte) : (setB v s).tIns = s.tIns := rfl
@[simp] theorem setB_tCall (v : Byte) : (setB v s).tCall = s.tCall := rfl
@[simp] theorem setB_tTotal (v : Byte) : (setB v s).tTotal = s.tTotal := rfl
@[simp] theorem setB_load (v : Byte) : (setB v s).load = s.load := rfl
@[simp] theorem setB_mem (v : Byte) : (setB v s).mem = s.mem := rfl
@[simp] theorem setB_slots (v : Byte) : (setB v s).slots = s.slots := rfl
@[simp] theorem setB_watch (v : Byte) : (setB v s).watch = s.watch := rfl
@[simp] theorem setB_activity (v : Byte) : (setB v s).activity = s.activity := rfl
@[simp] theorem setB_coverage (v : Byte) : (setB v s).coverage = s.coverage := rfl
@[simp] theorem setB_periph (v : Byte) : (setB v s).periph = s.periph := rfl
@[simp] theorem setB_script (v : Byte) : (setB v s).script = s.script := rfl
@[simp] theorem setB_ula (v : Byte) : (setB v s).ula = s.ula := rfl
@[simp] theorem setB_dbg (v : Byte) : (setB v s).dbg = s.dbg := rfl
@[simp] theorem setB_notices (v : Byte) : (setB v s).notices = s.notices := rfl
@[simp] theorem setB_failure (v : Byte) : (setB v s).failure = s.failure := rfl
@[simp] theorem setB_fault (v : Byte) : (setB v s).fault = s.fault := rfl
@[simp] theorem setB_draws (v : Byte) : (setB v s).draws = s.draws := rfl
@[simp] theorem setB_cpu_a (v : Byte) : (setB v s).cpu.a = s.cpu.a := rfl
@[simp] theorem setB_cpu_f (v : Byte) : (setB v s).cpu.f = s.cpu.f := rfl
@[simp] theorem setB_cpu_b (v : Byte) : (setB v s).cpu.b = v := rfl
@[simp] theorem setB_cpu_c (v : Byte) : (setB v s).cpu.c = s.cpu.c := rfl
@[simp] theorem setB_cpu_d (v : Byte) : (setB v s).cpu.d = s.cpu.d := rfl
@[simp] theorem setB_cpu_e (v : Byte) : (setB v s).cpu.e = s.cpu.e := rfl
@[simp] theorem setB_cpu_h (v : Byte) : (setB v s).cpu.h = s.cpu.h := rfl
@[simp] theorem setB_cpu_l (v : Byte) : (setB v s).cpu.l = s.cpu.l := rfl
@[simp] theorem setB_cpu_altA (v : Byte) : (setB v s).cpu.altA = s.cpu.altA := rfl
@[simp] theorem setB_cpu_altF (v : Byte) : (setB v s).cpu.altF = s.cpu.altF := rfl
@[simp] theorem setB_cpu_altB (v : Byte) : (setB v s).cpu.altB = s.cpu.altB := rfl
@[simp] theorem setB_cpu_altC (v : Byte) : (setB v s).cpu.altC = s.cpu.altC := rfl
@[simp] theorem setB_cpu_altD (v : Byte) : (setB v s).cpu.altD = s.cpu.altD := rfl
@[simp] theorem setB_cpu_altE (v : Byte) : (setB v s).cpu.altE = s.cpu.altE := rfl
@[simp] theorem setB_cpu_altH (v : Byte) : (setB v s).cpu.altH = s.cpu.altH := rfl
@[simp] theorem setB_cpu_altL (v : Byte) : (setB v s).cpu.altL = s.cpu.altL := rfl
@[simp] theorem setB_cpu_ix (v : Byte) : (setB v s).cpu.ix = s.cpu.ix := rfl
@[simp] theorem setB_cpu_iy (v : Byte) : (setB v s).cpu.iy = s.cpu.iy := rfl
@[simp] theorem setB_cpu_sp (v : Byte) : (setB v s).cpu.sp = s.cpu.sp := rfl
@[simp] theorem setB_cpu_pc (v : Byte) : (setB v s).cpu.pc = s.cpu.pc := rfl
@[simp] theorem setB_cpu_i (v : Byte) : (setB v s).cpu.i = s.cpu.i := rfl
@[simp] theorem setB_cpu_r (v : Byte) : (setB v s).cpu.r = s.cpu.r := rfl
@[simp] theorem setB_cpu_im (v : Byte) : (setB v s).cpu.im = s.cpu.im := rfl
@[simp] theorem setB_cpu_iff1 (v : Byte) : (setB v s).cpu.iff1 = s.cpu.iff1 := rfl
@[simp] theorem setB_cpu_iff2 (v : Byte) : (setB v s).cpu.iff2 = s.cpu.iff2 := rfl
@[simp] theorem setB_cpu_halted (v : Byte) : (setB v s).cpu.halted = s.cpu.halted := rfl
@[simp] theorem setB_cpu_eiShadow (v : Byte) : (setB v s).cpu.eiShadow = s.cpu.eiShadow := rfl
@[simp] theorem setB_cpu_intDeferred (v : Byte) : (setB v s).cpu.intDeferred = s.cpu.intDeferred := rfl
@[simp] theorem setB_cpu_intCountdown (v : Byte) : (setB v s).cpu.intCountdown = s.cpu.intCountdown := rfl

/-! ### `setFlags` -/

@[simp] theorem setFlags_cfg (fs : FlagSet) : (setFlags fs s).cfg = s.cfg := rfl
@[simp] theorem setFlags_pc0 (fs : FlagSet) : (setFlags fs s).pc0 = s.pc0 := rfl
@[simp] theorem setFlags_tIns (fs : FlagSet) : (setFlags fs s).tIns = s.tIns := rfl
@[simp] theorem setFlags_tCall (fs : FlagSet) : (setFlags fs s).tCall = s.tCall := rfl
@[simp] theorem setFlags_tTotal (fs : FlagSet) : (setFlags fs s).tTotal = s.tTotal := rfl
@[simp] theorem setFlags_load (fs : FlagSet) : (setFlags fs s).load = s.load := rfl
@[simp] theorem setFlags_mem (fs : FlagSet) : (setFlags fs s).mem = s.mem := rfl
@[simp] theorem setFlags_slots (fs : FlagSet) : (setFlags fs s).slots = s.slots := rfl
@[simp] theorem setFlags_watch (fs : FlagSet) : (setFlags fs s).watch = s.watch := rfl
@[simp] theorem setFlags_activity (fs : FlagSet) : (setFlags fs s).activity = s.activity := rfl
@[simp] theorem setFlags_coverage (fs : FlagSet) : (setFlags fs s).coverage = s.coverage := rfl
@[simp] theorem setFlags_periph (fs : FlagSet) : (setFlags fs s).periph = s.periph := rfl
@[simp] theorem setFlags_script (fs : FlagSet) : (setFlags fs s).script = s.script := rfl
@[simp] theorem setFlags_ula (fs : FlagSet) : (setFlags fs s).ula = s.ula := rfl
@[simp] theorem setFlags_dbg (fs : FlagSet) : (setFlags fs s).dbg = s.dbg := rfl
@[simp] theorem setFlags_notices (fs : FlagSet) : (setFlags fs s).notices = s.notices := rfl
@[simp] theorem setFlags_failure (fs : FlagSet) : (setFlags fs s).failure = s.failure := rfl
@[simp] theorem setFlags_fault (fs : FlagSet) : (setFlags fs s).fault = s.fault := rfl
@[simp] theorem setFlags_draws (fs : FlagSet) : (setFlags fs s).draws = s.draws + 8 := rfl
@[simp] theorem setFlags_cpu_a (fs : FlagSet) : (setFlags fs s).cpu.a = s.cpu.a := rfl
@[simp] theorem setFlags_cpu_b (fs : FlagSet) : (setFlags fs s).cpu.b = s.cpu.b := rfl
@[simp] theorem setFlags_cpu_c (fs : FlagSet) : (setFlags fs s).cpu.c = s.cpu.c := rfl
@[simp] theorem setFlags_cpu_d (fs : FlagSet) : (setFlags fs s).cpu.d = s.cpu.d := rfl
@[simp] theorem setFlags_cpu_e (fs : FlagSet) : (setFlags fs s).cpu.e = s.cpu.e := rfl
@[simp] theorem setFlags_cpu_h (fs : FlagSet) : (setFlags fs s).cpu.h = s.cpu.h := rfl
@[simp] theorem setFlags_cpu_l (fs : FlagSet) : (setFlags fs s).cpu.l = s.cpu.l := rfl
@[simp] theorem setFlags_cpu_altA (fs : FlagSet) : (setFlags fs s).cpu.altA = s.cpu.altA := rfl
@[simp] theorem setFlags_cpu_altF (fs : FlagSet) : (setFlags fs s).cpu.altF = s.cpu.altF := rfl
@[simp] theorem setFlags_cpu_altB (fs : FlagSet) : (setFlags fs s).cpu.altB = s.cpu.altB := rfl
@[simp] theorem setFlags_cpu_altC (fs : FlagSet) : (setFlags fs s).cpu.altC = s.cpu.altC := rfl
@[simp] theorem setFlags_cpu_altD (fs : FlagSet) : (setFlags fs s).cpu.altD = s.cpu.altD := rfl
@[simp] theorem setFlags_cpu_altE (fs : FlagSet) : (setFlags fs s).cpu.altE = s.cpu.altE := rfl
@[simp] theorem setFlags_cpu_altH (fs : FlagSet) : (setFlags fs s).cpu.altH = s.cpu.altH := rfl
@[simp] theorem setFlags_cpu_altL (fs : FlagSet) : (setFlags fs s).cpu.altL = s.cpu.altL := rfl
@[simp] theorem setFlags_cpu_ix (fs : FlagSet) : (setFlags fs s).cpu.ix = s.cpu.ix := rfl
@[simp] theorem setFlags_cpu_iy (fs : FlagSet) : (setFlags fs s).cpu.iy = s.cpu.iy := rfl
@[simp] theorem setFlags_cpu_sp (fs : FlagSet) : (setFlags fs s).cpu.sp = s.cpu.sp := rfl
@[simp] theorem setFlags_cpu_pc (fs : FlagSet) : (setFlags fs s).cpu.pc = s.cpu.pc := rfl
@[simp] theorem setFlags_cpu_i (fs : FlagSet) : (setFlags fs s).cpu.i = s.cpu.i := rfl
@[simp] theorem setFlags_cpu_r (fs : FlagSet) : (setFlags fs s).cpu.r = s.cpu.r := rfl
@[simp] theorem setFlags_cpu_im (fs : FlagSet) : (setFlags fs s).cpu.im = s.cpu.im := rfl
@[simp] theorem setFlags_cpu_iff1 (fs : FlagSet) : (setFlags fs s).cpu.iff1 = s.cpu.iff1 := rfl
@[simp] theorem setFlags_cpu_iff2 (fs : FlagSet) : (setFlags fs s).cpu.iff2 = s.cpu.iff2 := rfl
@[simp] theorem setFlags_cpu_halted (fs : FlagSet) : (setFlags fs s).cpu.halted = s.cpu.halted := rfl
@[simp] theorem setFlags_cpu_eiShadow (fs : FlagSet) : (setFlags fs s).cpu.eiShadow = s.cpu.eiShadow := rfl
@[simp] theorem setFlags_cpu_intDeferred (fs : FlagSet) : (setFlags fs s).cpu.intDeferred = s.cpu.intDeferred := rfl
@[simp] theorem setFlags_cpu_intCountdown (fs : FlagSet) : (setFlags fs s).cpu.intCountdown = s.cpu.intCountdown := rfl

/-! ### `setCountdown` -/

@[simp] theorem setCountdown_cfg (v : Int) : (setCountdown v s).cfg = s.cfg := rfl
@[simp] theorem setCountdown_pc0 (v : Int) : (setCountdown v s).pc0 = s.pc0 := rfl
@[simp] theorem setCountdown_tIns (v : Int) : (setCountdown v s).tIns = s.tIns := rfl
@[simp] theorem setCountdown_tCall (v : Int) : (setCountdown v s).tCall = s.tCall := rfl
@[simp] theorem setCountdown_tTotal (v : Int) : (setCountdown v s).tTotal = s.tTotal := rfl
@[simp] theorem setCountdown_load (v : Int) : (setCountdown v s).load = s.load := rfl
@[simp] theorem setCountdown_mem (v : Int) : (setCountdown v s).mem = s.mem := rfl
@[simp] theorem setCountdown_slots (v : Int) : (setCountdown v s).slots = s.slots := rfl
@[simp] theorem setCountdown_watch (v : Int) : (setCountdown v s).watch = s.watch := rfl
@[simp] theorem setCountdown_activity (v : Int) : (setCountdown v s).activity = s.activity := rfl
@[simp] theorem setCountdown_coverage (v : Int) : (setCountdown v s).coverage = s.coverage := rfl
@[simp] theorem setCountdown_periph (v : Int) : (setCountdown v s).periph = s.periph := rfl
@[simp] theorem setCountdown_script (v : Int) : (setCountdown v s).script = s.script := rfl
@[simp] theorem setCountdown_ula (v : Int) : (setCountdown v s).ula = s.ula := rfl
@[simp] theorem setCountdown_dbg (v : Int) : (setCountdown v s).dbg = s.dbg := rfl
@[simp] theorem setCountdown_notices (v : Int) : (setCountdown v s).notices = s.notices := rfl
@[simp] theorem setCountdown_failure (v : Int) : (setCountdown v s).failure = s.failure := rfl
@[simp] theorem setCountdown_fault (v : Int) : (setCountdown v s).fault = s.fault := rfl
@[simp] theorem setCountdown_draws (v : Int) : (setCountdown v s).draws = s.draws := rfl
@[simp] theorem setCountdown_cpu_a (v : Int) : (setCountdown v s).cpu.a = s.cpu.a := rfl
@[simp] theorem setCountdown_cpu_f (v : Int) : (setCountdown v s).cpu.f = s.cpu.f := rfl
@[simp] theorem setCountdown_cpu_b (v : Int) : (setCountdown v s).cpu.b = s.cpu.b := rfl
@[simp] theorem setCountdown_cpu_c (v : Int) : (setCountdown v s).cpu.c = s.cpu.c := rfl
@[simp] theorem setCountdown_cpu_d (v : Int) : (setCountdown v s).cpu.d = s.cpu.d := rfl
@[simp] theorem setCountdown_cpu_e (v : Int) : (setCountdown v s).cpu.e = s.cpu.e := rfl
@[simp] theorem setCountdown_cpu_h (v : Int) : (setCountdown v s).cpu.h = s.cpu.h := rfl
@[simp] theorem setCountdown_cpu_l (v : Int) : (setCountdown v s).cpu.l = s.cpu.l := rfl
@[simp] theorem setCountdown_cpu_altA (v : Int) : (setCountdown v s).cpu.altA = s.cpu.altA := rfl
@[simp] theorem setCountdown_cpu_altF (v : Int) : (setCountdown v s).cpu.altF = s.cpu.altF := rfl
@[simp] theorem setCountdown_cpu_altB (v : Int) : (setCountdown v s).cpu.altB = s.cpu.altB := rfl
@[simp] theorem setCountdown_cpu_altC (v : Int) : (setCountdown v s).cpu.altC = s.cpu.altC := rfl
@[simp] theorem setCountdown_cpu_altD (v : Int) : (setCountdown v s).cpu.altD = s.cpu.altD := rfl
@[simp] theorem setCountdown_cpu_altE (v : Int) : (setCountdown v s).cpu.altE = s.cpu.altE := rfl
@[simp] theorem setCountdown_cpu_altH (v : Int) : (setCountdown v s).cpu.altH = s.cpu.altH := rfl
@[simp] theorem setCountdown_cpu_altL (v : Int) : (setCountdown v s).cpu.altL = s.cpu.altL := rfl
@[simp] theorem setCountdown_cpu_ix (v : Int) : (setCountdown v s).cpu.ix = s.cpu.ix := rfl
@[simp] theorem setCountdown_cpu_iy (v : Int) : (setCountdown v s).cpu.iy = s.cpu.iy := rfl
@[simp] theorem setCountdown_cpu_sp (v : Int) : (setCountdown v s).cpu.sp = s.cpu.sp := rfl
@[simp] theorem setCountdown_cpu_pc (v : Int) : (setCountdown v s).cpu.pc = s.cpu.pc := rfl
@[simp] theorem setCountdown_cpu_i (v : Int) : (setCountdown v s).cpu.i = s.cpu.i := rfl
@[simp] theorem setCountdown_cpu_r (v : Int) : (setCountdown v s).cpu.r = s.cpu.r := rfl
@[simp] theorem setCountdown_cpu_im (v : Int) : (setCountdown v s).cpu.im = s.cpu.im := rfl
@[simp] theorem setCountdown_cpu_iff1 (v : Int) : (setCountdown v s).cpu.iff1 = s.cpu.iff1 := rfl
@[simp] theorem setCountdown_cpu_iff2 (v : Int) : (setCountdown v s).cpu.iff2 = s.cpu.iff2 := rfl
@[simp] theorem setCountdown_cpu_halted (v : Int) : (setCountdown v s).cpu.halted = s.cpu.halted := rfl
@[simp] theorem setCountdown_cpu_eiShadow (v : Int) : (setCountdown v s).cpu.eiShadow = s.cpu.eiShadow := rfl
@[simp] theorem setCountdown_cpu_intDeferred (v : Int) : (setCountdown v s).cpu.intDeferred = s.cpu.intDeferred := rfl
@[simp] theorem setCountdown_cpu_intCountdown (v : Int) : (setCountdown v s).cpu.intCountdown = v := rfl

/-! ### `setR8` -/

@[simp] theorem setR8_cfg (g : Reg8) (v : Byte) : (setR8 g v s).cfg = s.cfg := by cases g <;> rfl
@[simp] theorem setR8_pc0 (g : Reg8) (v : Byte) : (setR8 g v s).pc0 = s.pc0 := by cases g <;> rfl
@[simp] theorem setR8_tIns (g : Reg8) (v : Byte) : (setR8 g v s).tIns = s.tIns := by cases g <;> rfl
@[simp] theorem setR8_tCall (g : Reg8) (v : Byte) : (setR8 g v s).tCall = s.tCall := by cases g <;> rfl
@[simp] theorem setR8_tTotal (g : Reg8) (v : Byte) : (setR8 g v s).tTotal = s.tTotal := by cases g <;> rfl
@[simp] theorem setR8_load (g : Reg8) (v : Byte) : (setR8 g v s).load = s.load := by cases g <;> rfl
@[simp] theorem setR8_mem (g : Reg8) (v : Byte) : (setR8 g v s).mem = s.mem := by cases g <;> rfl
@[simp] theorem setR8_slots (g : Reg8) (v : Byte) : (setR8 g v s).slots = s.slots := by cases g <;> rfl
@[simp] theorem setR8_watch (g : Reg8) (v : Byte) : (setR8 g v s).watch = s.watch := by cases g <;> rfl
@[simp] theorem setR8_activity (g : Reg8) (v : Byte) : (setR8 g v s).activity = s.activity := by cases g <;> rfl
@[simp] theorem setR8_coverage (g : Reg8) (v : Byte) : (setR8 g v s).coverage = s.coverage := by cases g <;> rfl
@[simp] theorem setR8_periph (g : Reg8) (v : Byte) : (setR8 g v s).periph = s.periph := by cases g <;> rfl
@[simp] theorem setR8_script (g : Reg8) (v : Byte) : (setR8 g v s).script = s.script := by cases g <;> rfl
@[simp] theorem setR8_ula (g : Reg8) (v : Byte) : (setR8 g v s).ula = s.ula := by cases g <;> rfl
@[simp] theorem setR8_dbg (g : Reg8) (v : Byte) : (setR8 g v s).dbg = s.dbg := by cases g <;> rfl
@[simp] theorem setR8_notices (g : Reg8) (v : Byte) : (setR8 g v s).notices = s.notices := by cases g <;> rfl
@[simp] theorem setR8_failure (g : Reg8) (v : Byte) : (setR8 g v s).failure = s.failure := by cases g <;> rfl
@[simp] theorem setR8_fault (g : Reg8) (v : Byte) : (setR8 g v s).fault = s.fault := by cases g <;> rfl
@[simp] theorem setR8_draws (g : Reg8) (v : Byte) : (setR8 g v s).draws = s.draws := by cases g <;> rfl
@[simp] theorem setR8_cpu_f (g : Reg8) (v : Byte) : (setR8 g v s).cpu.f = s.cpu.f := by cases g <;> rfl
@[simp] theorem setR8_cpu_altA (g : Reg8) (v : Byte) : (setR8 g v s).cpu.altA = s.cpu.altA := by cases g <;> rfl
@[simp] theorem setR8_cpu_altF (g : Reg8) (v : Byte) : (setR8 g v s).cpu.altF = s.cpu.altF := by cases g <;> rfl
@[simp] theorem setR8_cpu_altB (g : Reg8) (v : Byte) : (setR8 g v s).cpu.altB = s.cpu.altB := by cases g <;> rfl
@[simp] theorem setR8_cpu_altC (g : Reg8) (v : Byte) : (setR8 g v s).cpu.altC = s.cpu.altC := by cases g <;> rfl
@[simp] theorem setR8_cpu_altD (g : Reg8) (v : Byte) : (setR8 g v s).cpu.altD = s.cpu.altD := by cases g <;> rfl
@[simp] theorem setR8_cpu_altE (g : Reg8) (v : Byte) : (setR8 g v s).cpu.altE = s.cpu.altE := by cases g <;> rfl
@[simp] theorem setR8_cpu_altH (g : Reg8) (v : Byte) : (setR8 g v s).cpu.altH = s.cpu.altH := by cases g <;> rfl
@[simp] theorem setR8_cpu_altL (g : Reg8) (v : Byte) : (setR8 g v s).cpu.altL = s.cpu.altL := by cases g <;> rfl
@[simp] theorem setR8_cpu_ix (g : Reg8) (v : Byte) : (setR8 g v s).cpu.ix = s.cpu.ix := by cases g <;> rfl
@[simp] theorem setR8_cpu_iy (g : Reg8) (v : Byte) : (setR8 g v s).cpu.iy = s.cpu.iy := by cases g <;> rfl
@[simp] theorem setR8_cpu_sp (g : Reg8) (v : Byte) : (setR8 g v s).cpu.sp = s.cpu.sp := by cases g <;> rfl
@[simp] theorem setR8_cpu_pc (g : Reg8) (v : Byte) : (setR8 g v s).cpu.pc = s.cpu.pc := by cases g <;> rfl
@[simp] theorem setR8_cpu_i (g : Reg8) (v : Byte) : (setR8 g v s).cpu.i = s.cpu.i := by cases g <;> rfl
@[simp] theorem setR8_cpu_r (g : Reg8) (v : Byte) : (setR8 g v s).cpu.r = s.cpu.r := by cases g <;> rfl
@[simp] theorem setR8_cpu_im (g : Reg8) (v : Byte) : (setR8 g v s).cpu.im = s.cpu.im := by cases g <;> rfl
@[simp] theorem setR8_cpu_iff1 (g : Reg8) (v : Byte) : (setR8 g v s).cpu.iff1 = s.cpu.iff1 := by cases g <;> rfl
@[simp] theorem setR8_cpu_iff2 (g : Reg8) (v : Byte) : (setR8 g v s).cpu.iff2 = s.cpu.iff2 := by cases g <;> rfl
@[simp] theorem setR8_cpu_halted (g : Reg8) (v : Byte) : (setR8 g v s).cpu.halted = s.cpu.halted := by cases g <;> rfl
@[simp] theorem setR8_cpu_eiShadow (g : Reg8) (v : Byte) : (setR8 g v s).cpu.eiShadow = s.cpu.eiShadow := by cases g <;> rfl
@[simp] theorem setR8_cpu_intDeferred (g : Reg8) (v : Byte) : (setR8 g v s).cpu.intDeferred = s.cpu.intDeferred := by cases g <;> rfl
@[simp] theorem setR8_cpu_intCountdown (g : Reg8) (v : Byte) : (setR8 g v s).cpu.intCountdown = s.cpu.intCountdown := by cases g <;> rfl

/-! ### `setR16` -/

@[simp] theorem setR16_cfg (g : Reg16) (v : Word) : (setR16 g v s).cfg = s.cfg := by cases g <;> rfl
@[simp] theorem setR16_pc0 (g : Reg16) (v : Word) : (setR16 g v s).pc0 = s.pc0 := by cases g <;> rfl
@[simp] theorem setR16_tIns (g : Reg16) (v : Word) : (setR16 g v s).tIns = s.tIns := by cases g <;> rfl
@[simp] theorem setR16_tCall (g : Reg16) (v : Word) : (setR16 g v s).tCall = s.tCall := by cases g <;> rfl
@[simp] theorem setR16_tTotal (g : Reg16) (v : Word) : (setR16 g v s).tTotal = s.tTotal := by cases g <;> rfl
@[simp] theorem setR16_load (g : Reg16) (v : Word) : (setR16 g v s).load = s.load := by cases g <;> rfl
@[simp] theorem setR16_mem (g : Reg16) (v : Word) : (setR16 g v s).mem = s.mem := by cases g <;> rfl
@[simp] theorem setR16_slots (g : Reg16) (v : Word) : (setR16 g v s).slots = s.slots := by cases g <;> rfl
@[simp] theorem setR16_watch (g : Reg16) (v : Word) : (setR16 g v s).watch = s.watch := by cases g <;> rfl
@[simp] theorem setR16_activity (g : Reg16) (v : Word) : (setR16 g v s).activity = s.activity := by cases g <;> rfl
@[simp] theorem setR16_coverage (g : Reg16) (v : Word) : (setR16 g v s).coverage = s.coverage := by cases g <;> rfl
@[simp] theorem setR16_periph (g : Reg16) (v : Word) : (setR16 g v s).periph = s.periph := by cases g <;> rfl
@[simp] theorem setR16_script (g : Reg16) (v : Word) : (setR16 g v s).script = s.script := by cases g <;> rfl
@[simp] theorem setR16_ula (g : Reg16) (v : Word) : (setR16 g v s).ula = s.ula := by cases g <;> rfl
@[simp] theorem setR16_dbg (g : Reg16) (v : Word) : (setR16 g v s).dbg = s.dbg := by cases g <;> rfl
@[simp] theorem setR16_notices (g : Reg16) (v : Word) : (setR16 g v s).notices = s.notices := by cases g <;> rfl
@[simp] theorem setR16_failure (g : Reg16) (v : Word) : (setR16 g v s).failure = s.failure := by cases g <;> rfl
@[simp] theorem setR16_fault (g : Reg16) (v : Word) : (setR16 g v s).fault = s.fault := by cases g <;> rfl
@[simp] theorem setR16_draws (g : Reg16) (v : Word) : (setR16 g v s).draws = s.draws := by cases g <;> rfl
@[simp] theorem setR16_cpu_a (g : Reg16) (v : Word) : (setR16 g v s).cpu.a = s.cpu.a := by cases g <;> rfl
@[simp] theorem setR16_cpu_f (g : Reg16) (v : Word) : (setR16 g v s).cpu.f = s.cpu.f := by cases g <;> rfl
@[simp] theorem setR16_cpu_altA (g : Reg16) (v : Word) : (setR16 g v s).cpu.altA = s.cpu.altA := by cases g <;> rfl
@[simp] theorem setR16_cpu_altF (g : Reg16) (v : Word) : (setR16 g v s).cpu.altF = s.cpu.altF := by cases g <;> rfl
@[simp] theorem setR16_cpu_altB (g : Reg16) (v : Word) : (setR16 g v s).cpu.altB = s.cpu.altB := by cases g <;> rfl
@[simp] theorem setR16_cpu_altC (g : Reg16) (v : Word) : (setR16 g v s).cpu.altC = s.cpu.altC := by cases g <;> rfl
@[simp] theorem setR16_cpu_altD (g : Reg16) (v : Word) : (setR16 g v s).cpu.altD = s.cpu.altD := by cases g <;> rfl
@[simp] theorem setR16_cpu_altE (g : Reg16) (v : Word) : (setR16 g v s).cpu.altE = s.cpu.altE := by cases g <;> rfl
@[simp] theorem setR16_cpu_altH (g : Reg16) (v : Word) : (setR16 g v s).cpu.altH = s.cpu.altH := by cases g <;> rfl
@[simp] theorem setR16_cpu_altL (g : Reg16) (v : Word) : (setR16 g v s).cpu.altL = s.cpu.altL := by cases g <;> rfl
@[simp] theorem setR16_cpu_ix (g : Reg16) (v : Word) : (setR16 g v s).cpu.ix = s.cpu.ix := by cases g <;> rfl
@[simp] theorem setR16_cpu_iy (g : Reg16) (v : Word) : (setR16 g v s).cpu.iy = s.cpu.iy := by cases g <;> rfl
@[simp] theorem setR16_cpu_pc (g : Reg16) (v : Word) : (setR16 g v s).cpu.pc = s.cpu.pc := by cases g <;> rfl
@[simp] theorem setR16_cpu_i (g : Reg16) (v : Word) : (setR16 g v s).cpu.i = s.cpu.i := by cases g <;> rfl
@[simp] theorem setR16_cpu_r (g : Reg16) (v : Word) : (setR16 g v s).cpu.r = s.cpu.r := by cases g <;> rfl
@[simp] theorem setR16_cpu_im (g : Reg16) (v : Word) : (setR16 g v s).cpu.im = s.cpu.im := by cases g <;> rfl
@[simp] theorem setR16_cpu_iff1 (g : Reg16) (v : Word) : (setR16 g v s).cpu.iff1 = s.cpu.iff1 := by cases g <;> rfl
@[simp] theorem setR16_cpu_iff2 (g : Reg16) (v : Word) : (setR16 g v s).cpu.iff2 = s.cpu.iff2 := by cases g <;> rfl
@[simp] theorem setR16_cpu_halted (g : Reg16) (v : Word) : (setR16 g v s).cpu.halted = s.cpu.halted := by cases g <;> rfl
@[simp] theorem setR16_cpu_eiShadow (g : Reg16) (v : Word) : (setR16 g v s).cpu.eiShadow = s.cpu.eiShadow := by cases g <;> rfl
@[simp] theorem setR16_cpu_intDeferred (g : Reg16) (v : Word) : (setR16 g v s).cpu.intDeferred = s.cpu.intDeferred := by cases g <;> rfl
@[simp] theorem setR16_cpu_intCountdown (g : Reg16) (v : Word) : (setR16 g v s).cpu.intCountdown = s.cpu.intCountdown := by cases g <;> rfl

/-! ### `setR16AF` -/

@[simp] theorem setR16AF_cfg (g : Reg16AF) (v : Word) : (setR16AF g v s).cfg = s.cfg := by cases g <;> rfl
@[simp] theorem setR16AF_pc0 (g : Reg16AF) (v : Word) : (setR16AF g v s).pc0 = s.pc0 := by cases g <;> rfl
@[simp] theorem setR16AF_tIns (g : Reg16AF) (v : Word) : (setR16AF g v s).tIns = s.tIns := by cases g <;> rfl
@[simp] theorem setR16AF_tCall (g : Reg16AF) (v : Word) : (setR16AF g v s).tCall = s.tCall := by cases g <;> rfl
@[simp] theorem setR16AF_tTotal (g : Reg16AF) (v : Word) : (setR16AF g v s).tTotal = s.tTotal := by cases g <;> rfl
@[simp] theorem setR16AF_load (g : Reg16AF) (v : Word) : (setR16AF g v s).load = s.load := by cases g <;> rfl
@[simp] theorem setR16AF_mem (g : Reg16AF) (v : Word) : (setR16AF g v s).mem = s.mem := by cases g <;> rfl
@[simp] theorem setR16AF_slots (g : Reg16AF) (v : Word) : (setR16AF g v s).slots = s.slots := by cases g <;> rfl
@[simp] theorem setR16AF_watch (g : Reg16AF) (v : Word) : (setR16AF g v s).watch = s.watch := by cases g <;> rfl
@[simp] theorem setR16AF_activity (g : Reg16AF) (v : Word) : (setR16AF g v s).activity = s.activity := by cases g <;> rfl
@[simp] theorem setR16AF_coverage (g : Reg16AF) (v : Word) : (setR16AF g v s).coverage = s.coverage := by cases g <;> rfl
@[simp] theorem setR16AF_periph (g : Reg16AF) (v : Word) : (setR16AF g v s).periph = s.periph := by cases g <;> rfl
@[simp] theorem setR16AF_script (g : Reg16AF) (v : Word) : (setR16AF g v s).script = s.script := by cases g <;> rfl
@[simp] theorem setR16AF_ula (g : Reg16AF) (v : Word) : (setR16AF g v s).ula = s.ula := by cases g <;> rfl
@[simp] theorem setR16AF_dbg (g : Reg16AF) (v : Word) : (setR16AF g v s).dbg = s.dbg := by cases g <;> rfl
@[simp] theorem setR16AF_notices (g : Reg16AF) (v : Word) : (setR16AF g v s).notices = s.notices := by cases g <;> rfl
@[simp] theorem setR16AF_failure (g : Reg16AF) (v : Word) : (setR16AF g v s).failure = s.failure := by cases g <;> rfl
@[simp] theorem setR16AF_fault (g : Reg16AF) (v : Word) : (setR16AF g v s).fault = s.fault := by cases g <;> rfl
@[simp] theorem setR16AF_draws (g : Reg16AF) (v : Word) : (setR16AF g v s).draws = s.draws := by cases g <;> rfl
@[simp] theorem setR16AF_cpu_altA (g : Reg16AF) (v : Word) : (setR16AF g v s).cpu.altA = s.cpu.altA := by cases g <;> rfl
@[simp] theorem setR16AF_cpu_altF (g : Reg16AF) (v : Word) : (setR16AF g v s).cpu.altF = s.cpu.altF := by cases g <;> rfl
@[simp] theorem setR16AF_cpu_altB (g : Reg16AF) (v : Word) : (setR16AF g v s).cpu.altB = s.cpu.altB := by cases g <;> rfl
@[simp] theorem setR16AF_cpu_altC (g : Reg16AF) (v : Word) : (setR16AF g v s).cpu.altC = s.cpu.altC := by cases g <;> rfl
@[simp] theorem setR16AF_cpu_altD (g : Reg16AF) (v : Word) : (setR16AF g v s).cpu.altD = s.cpu.altD := by cases g <;> rfl
@[simp] theorem setR16AF_cpu_altE (g : Reg16AF) (v : Word) : (setR16AF g v s).cpu.altE = s.cpu.altE := by cases g <;> rfl
@[simp] theorem setR16AF_cpu_altH (g : Reg16AF) (v : Word) : (setR16AF g v s).cpu.altH = s.cpu.altH := by cases g <;> rfl
@[simp] theorem setR16AF_cpu_altL (g : Reg16AF) (v : Word) : (setR16AF g v s).cpu.altL = s.cpu.altL := by cases g <;> rfl
@[simp] theorem setR16AF_cpu_ix (g : Reg16AF) (v : Word) : (setR16AF g v s).cpu.ix = s.cpu.ix := by cases g <;> rfl
@[simp] theorem setR16AF_cpu_iy (g : Reg16AF) (v : Word) : (setR16AF g v s).cpu.iy = s.cpu.iy := by cases g <;> rfl
@[simp] theorem setR16AF_cpu_sp (g : Reg16AF) (v : Word) : (setR16AF g v s).cpu.sp = s.cpu.sp := by cases g <;> rfl
@[simp] theorem setR16AF_cpu_pc (g : Reg16AF) (v : Word) : (setR16AF g v s).cpu.pc = s.cpu.pc := by cases g <;> rfl
@[simp] theorem setR16AF_cpu_i (g : Reg16AF) (v : Word) : (setR16AF g v s).cpu.i = s.cpu.i := by cases g <;> rfl
@[simp] theorem setR16AF_cpu_r (g : Reg16AF) (v : Word) : (setR16AF g v s).cpu.r = s.cpu.r := by cases g <;> rfl
@[simp] theorem setR16AF_cpu_im (g : Reg16AF) (v : Word) : (setR16AF g v s).cpu.im = s.cpu.im := by cases g <;> rfl
@[simp] theorem setR16AF_cpu_iff1 (g : Reg16AF) (v : Word) : (setR16AF g v s).cpu.iff1 = s.cpu.iff1 := by cases g <;> rfl
@[simp] theorem setR16AF_cpu_iff2 (g : Reg16AF) (v : Word) : (setR16AF g v s).cpu.iff2 = s.cpu.iff2 := by cases g <;> rfl
@[simp] theorem setR16AF_cpu_halted (g : Reg16AF) (v : Word) : (setR16AF g v s).cpu.halted = s.cpu.halted := by cases g <;> rfl
@[simp] theorem setR16AF_cpu_eiShadow (g : Reg16AF) (v : Word) : (setR16AF g v s).cpu.eiShadow = s.cpu.eiShadow := by cases g <;> rfl
@[simp] theorem setR16AF_cpu_intDeferred (g : Reg16AF) (v : Word) : (setR16AF g v s).cpu.intDeferred = s.cpu.intDeferred := by cases g <;> rfl
@[simp] theorem setR16AF_cpu_intCountdown (g : Reg16AF) (v : Word) : (setR16AF g v s).cpu.intCountdown = s.cpu.intCountdown := by cases g <;> rfl

/-! ### Reading back -/

@[simp] theorem Flags.ofByte_toByte (f : Flags) : Flags.ofByte f.toByte = f := by
  rcases f with ⟨_ | _, _ | _, _ | _, _ | _, _ | _, _ | _, _ | _, _ | _⟩ <;> rfl

@[simp] theorem Flags.toByte_ofByte (v : Byte) : (Flags.ofByte v).toByte = v := by
  revert v; decide

@[simp] theorem bc_setBC (v : Word) : bc (setBC v s) = v := by simp [bc]

@[simp] theorem de_setDE (v : Word) : de (setDE v s) = v := by simp [de]

@[simp] theorem hl_setHL (v : Word) : hl (setHL v s) = v := by simp [hl]

@[simp] theorem af_setAF (v : Word) : af (setAF v s) = v := by simp [af]

@[simp] theorem r8_setR8 (g : Reg8) (v : Byte) : r8 (setR8 g v s) g = v := by cases g <;> rfl

@[simp] theorem r8_setR8_of_ne (g g' : Reg8) (v : Byte) (h : g' ≠ g) : r8 (setR8 g v s) g' = r8 s g' := by
  cases g <;> cases g' <;> first | rfl | exact absurd rfl h

@[simp] theorem r16_setR16 (g : Reg16) (v : Word) : r16 (setR16 g v s) g = v := by
  cases g <;> simp [r16, setR16]

@[simp] theorem r16AF_setR16AF (g : Reg16AF) (v : Word) : r16AF (setR16AF g v s) g = v := by
  cases g <;> simp [r16AF, setR16AF]

/-! ### The flags `SetFlags` leaves -/

@[simp] theorem setFlags_cpu_f_s (fs : FlagSet) : (setFlags fs s).cpu.f.s = fs.s.apply s.cpu.f.s s.draws := rfl
@[simp] theorem setFlags_cpu_f_z (fs : FlagSet) : (setFlags fs s).cpu.f.z = fs.z.apply s.cpu.f.z (s.draws + 1) := rfl
@[simp] theorem setFlags_cpu_f_h (fs : FlagSet) : (setFlags fs s).cpu.f.h = fs.h.apply s.cpu.f.h (s.draws + 2) := rfl
@[simp] theorem setFlags_cpu_f_pv (fs : FlagSet) :
    (setFlags fs s).cpu.f.pv = fs.pv.apply s.cpu.f.pv (s.draws + 3) := rfl
@[simp] theorem setFlags_cpu_f_n (fs : FlagSet) : (setFlags fs s).cpu.f.n = fs.n.apply s.cpu.f.n (s.draws + 4) := rfl
@[simp] theorem setFlags_cpu_f_c (fs : FlagSet) : (setFlags fs s).cpu.f.c = fs.c.apply s.cpu.f.c (s.draws + 5) := rfl

@[simp] theorem FlagVal.apply_keep (old : Bool) (k : Nat) : FlagVal.keep.apply old k = old := rfl
@[simp] theorem FlagVal.apply_put (old v : Bool) (k : Nat) : (FlagVal.put v).apply old k = v := rfl

/-! ### Pairs and registers seen through an update that leaves the CPU alone -/

theorem peek_congr {s t : State} (hc : t.cfg = s.cfg) (hs : t.slots = s.slots) (hm : t.mem = s.mem) (x : Word) :
    peek t x = peek s x := by simp only [peek, hc, hs, hm]

@[simp] theorem read8_fst (x : Word) : (read8 x s).1 = peek s x := rfl

end Sys2Proof.Machine
end

