-- ==== Sys2Proof/Laws/Memory.lean ====
section
/-! SUPPORT. Memory: what a write changes and what it leaves, and that every operation keeps the canonical form. -/

namespace Sys2Proof.Machine

/-! ### Translation -/

theorem locate_bank {cfg : Config} {slots : List Nat} {a : Word} {p : Place} (h : locate cfg slots a = some p) :
    cfg.bank? p.bankNo = some p.bank ∧ p.offset < 65536 := by
  unfold locate at h
  split at h
  · cases h
  · split at h
    · split at h
      · rename_i hb
        cases h
        exact ⟨hb, Nat.lt_of_le_of_lt (Nat.sub_le _ _) a.isLt⟩
      · cases h
    · cases h

theorem unlistedByte_key {cfg : Config} {slots : List Nat} {a : Word} {p : Place}
    (h : locate cfg slots a = some p) : unlistedByte cfg p.key = initialByte p.bank p.offset := by
  obtain ⟨hb, ho⟩ := locate_bank h
  have h1 : p.key / 65536 = p.bankNo := by simp only [Place.key]; omega
  have h2 : p.key % 65536 = p.offset := by simp only [Place.key]; omega
  simp [unlistedByte, h1, h2, hb]

/-- Two places with one key are one place of one configuration. -/
theorem Place.eq_of_key {cfg : Config} {slots slots' : List Nat} {a b : Word} {p q : Place}
    (hp : locate cfg slots a = some p) (hq : locate cfg slots' b = some q) (h : p.key = q.key) : p = q := by
  obtain ⟨hpb, hpo⟩ := locate_bank hp
  obtain ⟨hqb, hqo⟩ := locate_bank hq
  simp only [Place.key] at h
  have h1 : p.bankNo = q.bankNo := by omega
  have h2 : p.offset = q.offset := by omega
  rw [h1, hqb] at hpb
  cases p; cases q; simp_all

/-- What an address reads as, in terms of the bank byte it is mapped to. -/
theorem peek_of_locate {s : State} {a : Word} {p : Place} (h : locate s.cfg s.slots a = some p) :
    peek s a = if p.bank.kind = .unmapped then p.bank.fill else cell s p.key := by
  simp only [peek, h, cell, unlistedByte_key h]
  cases p.bank.kind <;> simp

theorem peek_of_not_located {s : State} {a : Word} (h : locate s.cfg s.slots a = none) :
    peek s a = Config.absentByte s.cfg a.toNat := by simp only [peek, h]

theorem placeKey_congr {s t : State} (hc : t.cfg = s.cfg) (hs : t.slots = s.slots) (a : Word) :
    placeKey t a = placeKey s a := by simp only [placeKey, hc, hs]

theorem writable_congr {s t : State} (hc : t.cfg = s.cfg) (hs : t.slots = s.slots) (a : Word) :
    writable t a = writable s a := by simp only [writable, hc, hs]

theorem samePlace_congr {s t : State} (hc : t.cfg = s.cfg) (hs : t.slots = s.slots) (a b : Word) :
    samePlace t a b = samePlace s a b := by simp only [samePlace, placeKey_congr hc hs]

theorem cell_congr {s t : State} (hc : t.cfg = s.cfg) (hm : t.mem = s.mem) (key : Nat) :
    cell t key = cell s key := by simp only [cell, hc, hm]

/-! ### A store -/

/-- A store without bus effects changes the bank byte it reaches, where that is stored, and no other. -/
theorem cell_poke {s : State} (hw : Memory.wf s.cfg s.mem = true) (rom : Bool) (a : Word) (v : Byte) (key : Nat) :
    cell (poke rom a v s) key =
      match locate s.cfg s.slots a with
      | some p => if p.key = key ∧ stores p.bank.kind rom = true then v else cell s key
      | none => cell s key := by
  simp only [cell, poke, pokeMem]
  rcases Option.eq_none_or_eq_some (locate s.cfg s.slots a) with hp | ⟨p, hp⟩ <;> simp only [hp]
  by_cases hst : stores p.bank.kind rom = true
  · by_cases hk : p.key = key
    · subst hk
      simp [hst, unlistedByte_key hp, Sparse.get_set_same hw]
    · simp [hst, hk, Sparse.get_set_ne hw _ _ (Ne.symm hk)]
  · simp [hst]

theorem cell_write8 {s : State} (hw : Memory.wf s.cfg s.mem = true) (a : Word) (v : Byte) (key : Nat) :
    cell (write8 a v s) key = if placeKey s a = some key ∧ writable s a = true then v else cell s key := by
  have h := cell_poke (s := noteAccess .write a s) (by simpa using hw) false a v key
  simp only [noteAccess_cfg, noteAccess_slots] at h
  change cell (poke false a v (noteAccess .write a s)) key = _
  rw [h]
  simp only [placeKey, writable, cell_congr (noteAccess_cfg s .write a) (noteAccess_mem s .write a)]
  rcases Option.eq_none_or_eq_some (locate s.cfg s.slots a) with hl | ⟨p, hl⟩ <;> simp only [hl]
  · simp
  · cases hk : p.bank.kind <;> simp [stores]

/-- After a bus write, each address reads the byte written where it is mapped to the byte stored, and reads as before
elsewhere. -/
theorem peek_write8 {s : State} (hw : Memory.wf s.cfg s.mem = true) (a : Word) (v : Byte) (x : Word) :
    peek (write8 a v s) x = if samePlace s a x = true ∧ writable s a = true then v else peek s x := by
  cases hx : locate s.cfg s.slots x with
  | none =>
    rw [peek_of_not_located hx, peek_of_not_located (s := write8 a v s) (by simpa using hx)]
    have hn : samePlace s a x = false := by
      simp only [samePlace, placeKey, hx]
      cases locate s.cfg s.slots a <;> simp
    simp [hn]
  | some q =>
    rw [peek_of_locate hx, peek_of_locate (s := write8 a v s) (p := q) (by simpa using hx), cell_write8 hw]
    cases ha : locate s.cfg s.slots a with
    | none => simp [samePlace, placeKey, writable, ha]
    | some p =>
      by_cases hk : p.key = q.key
      · have hpq := Place.eq_of_key ha hx hk
        subst hpq
        cases hkind : p.bank.kind <;> simp [samePlace, placeKey, writable, ha, hx, hkind]
      · have hk' : ¬ (p.key = q.key) := hk
        simp [samePlace, placeKey, ha, hx, hk']

/-- Reading back a byte stored in RAM. -/
theorem peek_write8_same {s : State} (hw : Memory.wf s.cfg s.mem = true) {a : Word} (v : Byte)
    (h : writable s a = true) : peek (write8 a v s) a = v := by
  rw [peek_write8 hw]
  have : samePlace s a a = true := by
    simp only [writable] at h
    simp only [samePlace, placeKey]
    split at h <;> simp_all
  simp [this, h]

/-- A write that is discarded changes nothing. -/
theorem peek_write8_of_not_writable {s : State} (hw : Memory.wf s.cfg s.mem = true) {a : Word} (v : Byte)
    (h : writable s a = false) (x : Word) : peek (write8 a v s) x = peek s x := by
  rw [peek_write8 hw]; simp [h]

/-! ### The canonical form -/

theorem pokeMem_wf {s : State} (hw : Memory.wf s.cfg s.mem = true) (rom : Bool) (a : Word) (v : Byte) :
    Memory.wf s.cfg (pokeMem rom a v s) = true := by
  simp only [pokeMem]
  split
  · rename_i p hp
    split
    · rw [← unlistedByte_key hp]
      exact Sparse.wf_set hw
    · exact hw
  · exact hw

theorem poke_wf {s : State} (hw : Memory.wf s.cfg s.mem = true) (rom : Bool) (a : Word) (v : Byte) :
    Memory.wf (poke rom a v s).cfg (poke rom a v s).mem = true := pokeMem_wf hw rom a v

theorem write8_wf {s : State} (hw : Memory.wf s.cfg s.mem = true) (a : Word) (v : Byte) :
    Memory.wf (write8 a v s).cfg (write8 a v s).mem = true :=
  poke_wf (s := noteAccess .write a s) hw false a v

theorem memWrite16_wf {s : State} (hw : Memory.wf s.cfg s.mem = true) (a v : Word) :
    Memory.wf (memWrite16 a v s).cfg (memWrite16 a v s).mem = true := write8_wf (write8_wf hw _ _) _ _

theorem pushWord_wf {s : State} (hw : Memory.wf s.cfg s.mem = true) (v : Word) :
    Memory.wf (pushWord v s).cfg (pushWord v s).mem = true :=
  write8_wf (s := setSP _ (write8 _ _ (setSP _ s))) (write8_wf (s := setSP _ s) hw _ _) _ _

theorem writeBlock_wf {s : State} (hw : Memory.wf s.cfg s.mem = true) (rom : Bool) (a : Word) (bytes : List Byte) :
    Memory.wf (writeBlock rom a bytes s).cfg (writeBlock rom a bytes s).mem = true := by
  induction bytes generalizing a s with
  | nil => exact hw
  | cons v rest ih => exact ih (poke_wf hw rom a v) _

/-- Memory with nothing listed, as after reset, is in canonical form. -/
theorem reset_memory_wf (cfg : Config) (launch : Launch) :
    Memory.wf (State.resetWith cfg launch).cfg (State.resetWith cfg launch).mem = true := rfl

/-! ### `Stored`: memory after a sequence of bus writes -/

theorem Stored.refl (s : State) : Stored [] s s := ⟨fun _ => rfl, fun _ _ => rfl, fun _ => rfl⟩

theorem Stored.congr {ws : List (Word × Byte)} {s t u : State} (h : Stored ws s t) (hc : u.cfg = t.cfg)
    (hs : u.slots = t.slots) (hm : u.mem = t.mem) : Stored ws s u :=
  ⟨fun x => (peek_congr hc hs hm x).trans (h.1 x), fun x hx => (peek_congr hc hs hm x).trans (h.2.1 x hx),
    fun key => (cell_congr hc hm key).trans (h.2.2 key)⟩

/-- What the writes leave at an address none of them reaches. -/
theorem readAfter_of_apart {s : State} {ws : List (Word × Byte)} {x : Word}
    (h : ∀ w ∈ ws, samePlace s w.1 x = false) : readAfter s ws x = peek s x := by
  suffices ∀ old, ws.foldl (fun old w => if samePlace s w.1 x && writable s w.1 then w.2 else old) old = old from
    this _
  induction ws with
  | nil => intro old; rfl
  | cons w ws ih =>
    intro old
    simp only [List.foldl_cons, h w (by simp), Bool.false_and, Bool.false_eq_true, if_false]
    exact ih (fun w hw => h w (by simp [hw])) old

/-- Memory counted from another state with the same memory. -/
theorem Stored.of_start {ws : List (Word × Byte)} {s d u : State} (h : Stored ws d u) (hc : d.cfg = s.cfg)
    (hs : d.slots = s.slots) (hm : d.mem = s.mem) : Stored ws s u := by
  refine ⟨fun x => ?_, fun x hx => ?_, fun key => ?_⟩
  · rw [h.1 x]
    simp only [readAfter, samePlace_congr hc hs, writable_congr hc hs, peek_congr hc hs hm]
  · rw [h.2.1 x (fun w hw => by rw [samePlace_congr hc hs]; exact hx w hw), peek_congr hc hs hm]
  · rw [h.2.2 key]
    simp only [cellAfter, placeKey_congr hc hs, writable_congr hc hs, cell_congr hc hm]

/-- One more bus write. -/
theorem Stored.write8 {ws : List (Word × Byte)} {s t : State} (h : Stored ws s t) (hc : t.cfg = s.cfg)
    (hs : t.slots = s.slots) (hw : Memory.wf t.cfg t.mem = true) (a : Word) (v : Byte) :
    Stored (ws ++ [(a, v)]) s (write8 a v t) := by
  have hread : ∀ x, peek (Machine.write8 a v t) x = readAfter s (ws ++ [(a, v)]) x := by
    intro x
    rw [peek_write8 hw, h.1 x, samePlace_congr hc hs, writable_congr hc hs]
    simp [readAfter, List.foldl_append]
  refine ⟨hread, fun x hx => ?_, fun key => ?_⟩
  · rw [hread x]; exact readAfter_of_apart hx
  · rw [cell_write8 hw, h.2.2 key, placeKey_congr hc hs, writable_congr hc hs]
    simp [cellAfter, List.foldl_append]

/-- One bus write. -/
theorem stored_write8 {s : State} (hw : Memory.wf s.cfg s.mem = true) (a : Word) (v : Byte) :
    Stored [(a, v)] s (write8 a v s) := (Stored.refl s).write8 rfl rfl hw a v

/-- A word stored low byte first. -/
theorem stored_memWrite16 {s : State} (hw : Memory.wf s.cfg s.mem = true) (a v : Word) :
    Stored [(a, loByte v), (a + 1#16, hiByte v)] s (memWrite16 a v s) :=
  (stored_write8 hw a (loByte v)).write8 rfl rfl (write8_wf hw _ _) _ _

theorem sub_one_sub_one (v : Word) : v - 1#16 - 1#16 = v - 2#16 := by
  rw [BitVec.sub_sub]; rfl

/-- A word pushed: the high byte first, at the higher address. -/
theorem stored_pushWord {s : State} (hw : Memory.wf s.cfg s.mem = true) (v : Word) :
    Stored [(s.cpu.sp - 1#16, hiByte v), (s.cpu.sp - 2#16, loByte v)] s (pushWord v s) := by
  rw [← sub_one_sub_one]
  have h1 : Stored [(s.cpu.sp - 1#16, hiByte v)] s
      (setSP (s.cpu.sp - 1#16 - 1#16) (write8 (s.cpu.sp - 1#16) (hiByte v) (setSP (s.cpu.sp - 1#16) s))) :=
    (((Stored.refl s).congr (u := setSP _ s) rfl rfl rfl).write8 rfl rfl hw _ _).congr rfl rfl rfl
  exact h1.write8 rfl rfl (write8_wf (s := setSP _ s) hw _ _) _ _

/-! ### Memory left alone -/

theorem MemoryKept.of_eq {s t : State} (hc : t.cfg = s.cfg) (hs : t.slots = s.slots) (hm : t.mem = s.mem) :
    MemoryKept s t := ⟨peek_congr hc hs hm, cell_congr hc hm⟩

end Sys2Proof.Machine
end

