-- ==== Sys2Proof/Laws/Frame.lean ====
section
/-! SUPPORT. The frame predicates of Safety.lean seen through each update: an update keeps what it does not touch, and a
bus access adds itself to the accesses made. -/

namespace Sys2Proof.Machine

variable (s t : State)

/-! ### `OthersKept` -/

@[simp] theorem othersKept_noteAccess (k : AccessKind) (x : Word) :
    OthersKept s (noteAccess k x t) ↔ OthersKept s t := Iff.rfl
@[simp] theorem othersKept_read8 (x : Word) :
    OthersKept s ((read8 x t).2) ↔ OthersKept s t := Iff.rfl
@[simp] theorem othersKept_poke (rom : Bool) (x : Word) (v : Byte) :
    OthersKept s (poke rom x v t) ↔ OthersKept s t := Iff.rfl
@[simp] theorem othersKept_write8 (x : Word) (v : Byte) :
    OthersKept s (write8 x v t) ↔ OthersKept s t := Iff.rfl
@[simp] theorem othersKept_setTIns (n : Nat) :
    OthersKept s (setTIns n t) ↔ OthersKept s t := Iff.rfl
@[simp] theorem othersKept_setPC (v : Word) :
    OthersKept s (setPC v t) ↔ OthersKept s t := Iff.rfl
@[simp] theorem othersKept_setSP (v : Word) :
    OthersKept s (setSP v t) ↔ OthersKept s t := Iff.rfl
@[simp] theorem othersKept_incR :
    OthersKept s (incR t) ↔ OthersKept s t := Iff.rfl
@[simp] theorem othersKept_disableInterrupts (nmi : Bool) :
    OthersKept s (disableInterrupts nmi t) ↔ OthersKept s t := Iff.rfl
@[simp] theorem othersKept_setBC (v : Word) :
    OthersKept s (setBC v t) ↔ OthersKept s t := Iff.rfl
@[simp] theorem othersKept_setDE (v : Word) :
    OthersKept s (setDE v t) ↔ OthersKept s t := Iff.rfl
@[simp] theorem othersKept_setHL (v : Word) :
    OthersKept s (setHL v t) ↔ OthersKept s t := Iff.rfl
@[simp] theorem othersKept_setAF (v : Word) :
    OthersKept s (setAF v t) ↔ OthersKept s t := Iff.rfl
@[simp] theorem othersKept_setIX (v : Word) :
    OthersKept s (setIX v t) ↔ OthersKept s t := Iff.rfl
@[simp] theorem othersKept_setIY (v : Word) :
    OthersKept s (setIY v t) ↔ OthersKept s t := Iff.rfl
@[simp] theorem othersKept_setA (v : Byte) :
    OthersKept s (setA v t) ↔ OthersKept s t := Iff.rfl
@[simp] theorem othersKept_setB (v : Byte) :
    OthersKept s (setB v t) ↔ OthersKept s t := Iff.rfl
@[simp] theorem othersKept_setFlags (fs : FlagSet) :
    OthersKept s (setFlags fs t) ↔ OthersKept s t := Iff.rfl
@[simp] theorem othersKept_setCountdown (v : Int) :
    OthersKept s (setCountdown v t) ↔ OthersKept s t := Iff.rfl
@[simp] theorem othersKept_setR8 (g : Reg8) (v : Byte) :
    OthersKept s (setR8 g v t) ↔ OthersKept s t := by cases g <;> exact Iff.rfl
@[simp] theorem othersKept_setR16 (g : Reg16) (v : Word) :
    OthersKept s (setR16 g v t) ↔ OthersKept s t := by cases g <;> exact Iff.rfl
@[simp] theorem othersKept_setR16AF (g : Reg16AF) (v : Word) :
    OthersKept s (setR16AF g v t) ↔ OthersKept s t := by cases g <;> exact Iff.rfl

/-! ### `OthersKeptButPorts` -/

@[simp] theorem othersKeptButPorts_noteAccess (k : AccessKind) (x : Word) :
    OthersKeptButPorts s (noteAccess k x t) ↔ OthersKeptButPorts s t := Iff.rfl
@[simp] theorem othersKeptButPorts_read8 (x : Word) :
    OthersKeptButPorts s ((read8 x t).2) ↔ OthersKeptButPorts s t := Iff.rfl
@[simp] theorem othersKeptButPorts_poke (rom : Bool) (x : Word) (v : Byte) :
    OthersKeptButPorts s (poke rom x v t) ↔ OthersKeptButPorts s t := Iff.rfl
@[simp] theorem othersKeptButPorts_write8 (x : Word) (v : Byte) :
    OthersKeptButPorts s (write8 x v t) ↔ OthersKeptButPorts s t := Iff.rfl
@[simp] theorem othersKeptButPorts_setTIns (n : Nat) :
    OthersKeptButPorts s (setTIns n t) ↔ OthersKeptButPorts s t := Iff.rfl
@[simp] theorem othersKeptButPorts_setPC (v : Word) :
    OthersKeptButPorts s (setPC v t) ↔ OthersKeptButPorts s t := Iff.rfl
@[simp] theorem othersKeptButPorts_setSP (v : Word) :
    OthersKeptButPorts s (setSP v t) ↔ OthersKeptButPorts s t := Iff.rfl
@[simp] theorem othersKeptButPorts_incR :
    OthersKeptButPorts s (incR t) ↔ OthersKeptButPorts s t := Iff.rfl
@[simp] theorem othersKeptButPorts_disableInterrupts (nmi : Bool) :
    OthersKeptButPorts s (disableInterrupts nmi t) ↔ OthersKeptButPorts s t := Iff.rfl
@[simp] theorem othersKeptButPorts_setBC (v : Word) :
    OthersKeptButPorts s (setBC v t) ↔ OthersKeptButPorts s t := Iff.rfl
@[simp] theorem othersKeptButPorts_setDE (v : Word) :
    OthersKeptButPorts s (setDE v t) ↔ OthersKeptButPorts s t := Iff.rfl
@[simp] theorem othersKeptButPorts_setHL (v : Word) :
    OthersKeptButPorts s (setHL v t) ↔ OthersKeptButPorts s t := Iff.rfl
@[simp] theorem othersKeptButPorts_setAF (v : Word) :
    OthersKeptButPorts s (setAF v t) ↔ OthersKeptButPorts s t := Iff.rfl
@[simp] theorem othersKeptButPorts_setIX (v : Word) :
    OthersKeptButPorts s (setIX v t) ↔ OthersKeptButPorts s t := Iff.rfl
@[simp] theorem othersKeptButPorts_setIY (v : Word) :
    OthersKeptButPorts s (setIY v t) ↔ OthersKeptButPorts s t := Iff.rfl
@[simp] theorem othersKeptButPorts_setA (v : Byte) :
    OthersKeptButPorts s (setA v t) ↔ OthersKeptButPorts s t := Iff.rfl
@[simp] theorem othersKeptButPorts_setB (v : Byte) :
    OthersKeptButPorts s (setB v t) ↔ OthersKeptButPorts s t := Iff.rfl
@[simp] theorem othersKeptButPorts_setFlags (fs : FlagSet) :
    OthersKeptButPorts s (setFlags fs t) ↔ OthersKeptButPorts s t := Iff.rfl
@[simp] theorem othersKeptButPorts_setCountdown (v : Int) :
    OthersKeptButPorts s (setCountdown v t) ↔ OthersKeptButPorts s t := Iff.rfl
@[simp] theorem othersKeptButPorts_setR8 (g : Reg8) (v : Byte) :
    OthersKeptButPorts s (setR8 g v t) ↔ OthersKeptButPorts s t := by cases g <;> exact Iff.rfl
@[simp] theorem othersKeptButPorts_setR16 (g : Reg16) (v : Word) :
    OthersKeptButPorts s (setR16 g v t) ↔ OthersKeptButPorts s t := by cases g <;> exact Iff.rfl
@[simp] theorem othersKeptButPorts_setR16AF (g : Reg16AF) (v : Word) :
    OthersKeptButPorts s (setR16AF g v t) ↔ OthersKeptButPorts s t := by cases g <;> exact Iff.rfl

/-! ### `Accessed` -/

@[simp] theorem accessed_poke (acc : List (AccessKind × Word)) (rom : Bool) (x : Word) (v : Byte) :
    Accessed acc s (poke rom x v t) ↔ Accessed acc s t := Iff.rfl
@[simp] theorem accessed_setTIns (acc : List (AccessKind × Word)) (n : Nat) :
    Accessed acc s (setTIns n t) ↔ Accessed acc s t := Iff.rfl
@[simp] theorem accessed_setPC (acc : List (AccessKind × Word)) (v : Word) :
    Accessed acc s (setPC v t) ↔ Accessed acc s t := Iff.rfl
@[simp] theorem accessed_setSP (acc : List (AccessKind × Word)) (v : Word) :
    Accessed acc s (setSP v t) ↔ Accessed acc s t := Iff.rfl
@[simp] theorem accessed_incR (acc : List (AccessKind × Word)) :
    Accessed acc s (incR t) ↔ Accessed acc s t := Iff.rfl
@[simp] theorem accessed_disableInterrupts (acc : List (AccessKind × Word)) (nmi : Bool) :
    Accessed acc s (disableInterrupts nmi t) ↔ Accessed acc s t := Iff.rfl
@[simp] theorem accessed_setBC (acc : List (AccessKind × Word)) (v : Word) :
    Accessed acc s (setBC v t) ↔ Accessed acc s t := Iff.rfl
@[simp] theorem accessed_setDE (acc : List (AccessKind × Word)) (v : Word) :
    Accessed acc s (setDE v t) ↔ Accessed acc s t := Iff.rfl
@[simp] theorem accessed_setHL (acc : List (AccessKind × Word)) (v : Word) :
    Accessed acc s (setHL v t) ↔ Accessed acc s t := Iff.rfl
@[simp] theorem accessed_setAF (acc : List (AccessKind × Word)) (v : Word) :
    Accessed acc s (setAF v t) ↔ Accessed acc s t := Iff.rfl
@[simp] theorem accessed_setIX (acc : List (AccessKind × Word)) (v : Word) :
    Accessed acc s (setIX v t) ↔ Accessed acc s t := Iff.rfl
@[simp] theorem accessed_setIY (acc : List (AccessKind × Word)) (v : Word) :
    Accessed acc s (setIY v t) ↔ Accessed acc s t := Iff.rfl
@[simp] theorem accessed_setA (acc : List (AccessKind × Word)) (v : Byte) :
    Accessed acc s (setA v t) ↔ Accessed acc s t := Iff.rfl
@[simp] theorem accessed_setB (acc : List (AccessKind × Word)) (v : Byte) :
    Accessed acc s (setB v t) ↔ Accessed acc s t := Iff.rfl
@[simp] theorem accessed_setFlags (acc : List (AccessKind × Word)) (fs : FlagSet) :
    Accessed acc s (setFlags fs t) ↔ Accessed acc s t := Iff.rfl
@[simp] theorem accessed_setCountdown (acc : List (AccessKind × Word)) (v : Int) :
    Accessed acc s (setCountdown v t) ↔ Accessed acc s t := Iff.rfl
@[simp] theorem accessed_setR8 (acc : List (AccessKind × Word)) (g : Reg8) (v : Byte) :
    Accessed acc s (setR8 g v t) ↔ Accessed acc s t := by cases g <;> exact Iff.rfl
@[simp] theorem accessed_setR16 (acc : List (AccessKind × Word)) (g : Reg16) (v : Word) :
    Accessed acc s (setR16 g v t) ↔ Accessed acc s t := by cases g <;> exact Iff.rfl
@[simp] theorem accessed_setR16AF (acc : List (AccessKind × Word)) (g : Reg16AF) (v : Word) :
    Accessed acc s (setR16AF g v t) ↔ Accessed acc s t := by cases g <;> exact Iff.rfl

/-! ### `MemoryKept` -/

@[simp] theorem memoryKept_noteAccess (k : AccessKind) (x : Word) :
    MemoryKept s (noteAccess k x t) ↔ MemoryKept s t := Iff.rfl
@[simp] theorem memoryKept_read8 (x : Word) :
    MemoryKept s ((read8 x t).2) ↔ MemoryKept s t := Iff.rfl
@[simp] theorem memoryKept_setTIns (n : Nat) :
    MemoryKept s (setTIns n t) ↔ MemoryKept s t := Iff.rfl
@[simp] theorem memoryKept_setPC (v : Word) :
    MemoryKept s (setPC v t) ↔ MemoryKept s t := Iff.rfl
@[simp] theorem memoryKept_setSP (v : Word) :
    MemoryKept s (setSP v t) ↔ MemoryKept s t := Iff.rfl
@[simp] theorem memoryKept_incR :
    MemoryKept s (incR t) ↔ MemoryKept s t := Iff.rfl
@[simp] theorem memoryKept_disableInterrupts (nmi : Bool) :
    MemoryKept s (disableInterrupts nmi t) ↔ MemoryKept s t := Iff.rfl
@[simp] theorem memoryKept_setBC (v : Word) :
    MemoryKept s (setBC v t) ↔ MemoryKept s t := Iff.rfl
@[simp] theorem memoryKept_setDE (v : Word) :
    MemoryKept s (setDE v t) ↔ MemoryKept s t := Iff.rfl
@[simp] theorem memoryKept_setHL (v : Word) :
    MemoryKept s (setHL v t) ↔ MemoryKept s t := Iff.rfl
@[simp] theorem memoryKept_setAF (v : Word) :
    MemoryKept s (setAF v t) ↔ MemoryKept s t := Iff.rfl
@[simp] theorem memoryKept_setIX (v : Word) :
    MemoryKept s (setIX v t) ↔ MemoryKept s t := Iff.rfl
@[simp] theorem memoryKept_setIY (v : Word) :
    MemoryKept s (setIY v t) ↔ MemoryKept s t := Iff.rfl
@[simp] theorem memoryKept_setA (v : Byte) :
    MemoryKept s (setA v t) ↔ MemoryKept s t := Iff.rfl
@[simp] theorem memoryKept_setB (v : Byte) :
    MemoryKept s (setB v t) ↔ MemoryKept s t := Iff.rfl
@[simp] theorem memoryKept_setFlags (fs : FlagSet) :
    MemoryKept s (setFlags fs t) ↔ MemoryKept s t := Iff.rfl
@[simp] theorem memoryKept_setCountdown (v : Int) :
    MemoryKept s (setCountdown v t) ↔ MemoryKept s t := Iff.rfl
@[simp] theorem memoryKept_setR8 (g : Reg8) (v : Byte) :
    MemoryKept s (setR8 g v t) ↔ MemoryKept s t := by cases g <;> exact Iff.rfl
@[simp] theorem memoryKept_setR16 (g : Reg16) (v : Word) :
    MemoryKept s (setR16 g v t) ↔ MemoryKept s t := by cases g <;> exact Iff.rfl
@[simp] theorem memoryKept_setR16AF (g : Reg16AF) (v : Word) :
    MemoryKept s (setR16AF g v t) ↔ MemoryKept s t := by cases g <;> exact Iff.rfl

/-! ### `Stored` -/

@[simp] theorem stored_noteAccess (ws : List (Word × Byte)) (k : AccessKind) (x : Word) :
    Stored ws s (noteAccess k x t) ↔ Stored ws s t := Iff.rfl
@[simp] theorem stored_read8 (ws : List (Word × Byte)) (x : Word) :
    Stored ws s ((read8 x t).2) ↔ Stored ws s t := Iff.rfl
@[simp] theorem stored_setTIns (ws : List (Word × Byte)) (n : Nat) :
    Stored ws s (setTIns n t) ↔ Stored ws s t := Iff.rfl
@[simp] theorem stored_setPC (ws : List (Word × Byte)) (v : Word) :
    Stored ws s (setPC v t) ↔ Stored ws s t := Iff.rfl
@[simp] theorem stored_setSP (ws : List (Word × Byte)) (v : Word) :
    Stored ws s (setSP v t) ↔ Stored ws s t := Iff.rfl
@[simp] theorem stored_incR (ws : List (Word × Byte)) :
    Stored ws s (incR t) ↔ Stored ws s t := Iff.rfl
@[simp] theorem stored_disableInterrupts (ws : List (Word × Byte)) (nmi : Bool) :
    Stored ws s (disableInterrupts nmi t) ↔ Stored ws s t := Iff.rfl
@[simp] theorem stored_setBC (ws : List (Word × Byte)) (v : Word) :
    Stored ws s (setBC v t) ↔ Stored ws s t := Iff.rfl
@[simp] theorem stored_setDE (ws : List (Word × Byte)) (v : Word) :
    Stored ws s (setDE v t) ↔ Stored ws s t := Iff.rfl
@[simp] theorem stored_setHL (ws : List (Word × Byte)) (v : Word) :
    Stored ws s (setHL v t) ↔ Stored ws s t := Iff.rfl
@[simp] theorem stored_setAF (ws : List (Word × Byte)) (v : Word) :
    Stored ws s (setAF v t) ↔ Stored ws s t := Iff.rfl
@[simp] theorem stored_setIX (ws : List (Word × Byte)) (v : Word) :
    Stored ws s (setIX v t) ↔ Stored ws s t := Iff.rfl
@[simp] theorem stored_setIY (ws : List (Word × Byte)) (v : Word) :
    Stored ws s (setIY v t) ↔ Stored ws s t := Iff.rfl
@[simp] theorem stored_setA (ws : List (Word × Byte)) (v : Byte) :
    Stored ws s (setA v t) ↔ Stored ws s t := Iff.rfl
@[simp] theorem stored_setB (ws : List (Word × Byte)) (v : Byte) :
    Stored ws s (setB v t) ↔ Stored ws s t := Iff.rfl
@[simp] theorem stored_setFlags (ws : List (Word × Byte)) (fs : FlagSet) :
    Stored ws s (setFlags fs t) ↔ Stored ws s t := Iff.rfl
@[simp] theorem stored_setCountdown (ws : List (Word × Byte)) (v : Int) :
    Stored ws s (setCountdown v t) ↔ Stored ws s t := Iff.rfl
@[simp] theorem stored_setR8 (ws : List (Word × Byte)) (g : Reg8) (v : Byte) :
    Stored ws s (setR8 g v t) ↔ Stored ws s t := by cases g <;> exact Iff.rfl
@[simp] theorem stored_setR16 (ws : List (Word × Byte)) (g : Reg16) (v : Word) :
    Stored ws s (setR16 g v t) ↔ Stored ws s t := by cases g <;> exact Iff.rfl
@[simp] theorem stored_setR16AF (ws : List (Word × Byte)) (g : Reg16AF) (v : Word) :
    Stored ws s (setR16AF g v t) ↔ Stored ws s t := by cases g <;> exact Iff.rfl

/-! ### `RegsKept` -/

@[simp] theorem regsKept_noteAccess (l : List Reg) (k : AccessKind) (x : Word) :
    RegsKept l s (noteAccess k x t) ↔ RegsKept l s t := Iff.rfl
@[simp] theorem regsKept_read8 (l : List Reg) (x : Word) :
    RegsKept l s ((read8 x t).2) ↔ RegsKept l s t := Iff.rfl
@[simp] theorem regsKept_poke (l : List Reg) (rom : Bool) (x : Word) (v : Byte) :
    RegsKept l s (poke rom x v t) ↔ RegsKept l s t := Iff.rfl
@[simp] theorem regsKept_write8 (l : List Reg) (x : Word) (v : Byte) :
    RegsKept l s (write8 x v t) ↔ RegsKept l s t := Iff.rfl
@[simp] theorem regsKept_setTIns (l : List Reg) (n : Nat) :
    RegsKept l s (setTIns n t) ↔ RegsKept l s t := Iff.rfl
@[simp] theorem regsKept_setFlags (l : List Reg) (fs : FlagSet) :
    RegsKept l s (setFlags fs t) ↔ RegsKept l s t := Iff.rfl

/-! ### `FlagsKept` -/

@[simp] theorem flagsKept_noteAccess (k : AccessKind) (x : Word) :
    FlagsKept s (noteAccess k x t) ↔ FlagsKept s t := Iff.rfl
@[simp] theorem flagsKept_read8 (x : Word) :
    FlagsKept s ((read8 x t).2) ↔ FlagsKept s t := Iff.rfl
@[simp] theorem flagsKept_poke (rom : Bool) (x : Word) (v : Byte) :
    FlagsKept s (poke rom x v t) ↔ FlagsKept s t := Iff.rfl
@[simp] theorem flagsKept_write8 (x : Word) (v : Byte) :
    FlagsKept s (write8 x v t) ↔ FlagsKept s t := Iff.rfl
@[simp] theorem flagsKept_setTIns (n : Nat) :
    FlagsKept s (setTIns n t) ↔ FlagsKept s t := Iff.rfl
@[simp] theorem flagsKept_setPC (v : Word) :
    FlagsKept s (setPC v t) ↔ FlagsKept s t := Iff.rfl
@[simp] theorem flagsKept_setSP (v : Word) :
    FlagsKept s (setSP v t) ↔ FlagsKept s t := Iff.rfl
@[simp] theorem flagsKept_incR :
    FlagsKept s (incR t) ↔ FlagsKept s t := Iff.rfl
@[simp] theorem flagsKept_disableInterrupts (nmi : Bool) :
    FlagsKept s (disableInterrupts nmi t) ↔ FlagsKept s t := Iff.rfl
@[simp] theorem flagsKept_setBC (v : Word) :
    FlagsKept s (setBC v t) ↔ FlagsKept s t := Iff.rfl
@[simp] theorem flagsKept_setDE (v : Word) :
    FlagsKept s (setDE v t) ↔ FlagsKept s t := Iff.rfl
@[simp] theorem flagsKept_setHL (v : Word) :
    FlagsKept s (setHL v t) ↔ FlagsKept s t := Iff.rfl
@[simp] theorem flagsKept_setIX (v : Word) :
    FlagsKept s (setIX v t) ↔ FlagsKept s t := Iff.rfl
@[simp] theorem flagsKept_setIY (v : Word) :
    FlagsKept s (setIY v t) ↔ FlagsKept s t := Iff.rfl
@[simp] theorem flagsKept_setA (v : Byte) :
    FlagsKept s (setA v t) ↔ FlagsKept s t := Iff.rfl
@[simp] theorem flagsKept_setB (v : Byte) :
    FlagsKept s (setB v t) ↔ FlagsKept s t := Iff.rfl
@[simp] theorem flagsKept_setCountdown (v : Int) :
    FlagsKept s (setCountdown v t) ↔ FlagsKept s t := Iff.rfl
@[simp] theorem flagsKept_setR8 (g : Reg8) (v : Byte) :
    FlagsKept s (setR8 g v t) ↔ FlagsKept s t := by cases g <;> exact Iff.rfl
@[simp] theorem flagsKept_setR16 (g : Reg16) (v : Word) :
    FlagsKept s (setR16 g v t) ↔ FlagsKept s t := by cases g <;> exact Iff.rfl

/-! ### Starting points -/

@[simp] theorem othersKept_self : OthersKept s s := rfl
@[simp] theorem othersKeptButPorts_self : OthersKeptButPorts s s := rfl
@[simp] theorem accessed_self : Accessed [] s s := ⟨rfl, rfl⟩
@[simp] theorem memoryKept_self : MemoryKept s s := ⟨fun _ => rfl, fun _ => rfl⟩
@[simp] theorem flagsKept_self : FlagsKept s s := rfl
@[simp] theorem regsKept_self (l : List Reg) : RegsKept l s s := by intro reg _; cases reg <;> rfl

/-! ### What the rest kept says of each item -/

theorem OthersKept.cfg {s t : State} (h : OthersKept s t) : t.cfg = s.cfg := by
  have e := congrArg State.cfg h; exact e
theorem OthersKept.pc0 {s t : State} (h : OthersKept s t) : t.pc0 = s.pc0 := by
  have e := congrArg State.pc0 h; exact e
theorem OthersKept.tCall {s t : State} (h : OthersKept s t) : t.tCall = s.tCall := by
  have e := congrArg State.tCall h; exact e
theorem OthersKept.tTotal {s t : State} (h : OthersKept s t) : t.tTotal = s.tTotal := by
  have e := congrArg State.tTotal h; exact e
theorem OthersKept.load {s t : State} (h : OthersKept s t) : t.load = s.load := by
  have e := congrArg State.load h; exact e
theorem OthersKept.slots {s t : State} (h : OthersKept s t) : t.slots = s.slots := by
  have e := congrArg State.slots h; exact e
theorem OthersKept.coverage {s t : State} (h : OthersKept s t) : t.coverage = s.coverage := by
  have e := congrArg State.coverage h; exact e
theorem OthersKept.periph {s t : State} (h : OthersKept s t) : t.periph = s.periph := by
  have e := congrArg State.periph h; exact e
theorem OthersKept.script {s t : State} (h : OthersKept s t) : t.script = s.script := by
  have e := congrArg State.script h; exact e
theorem OthersKept.ula {s t : State} (h : OthersKept s t) : t.ula = s.ula := by
  have e := congrArg State.ula h; exact e
theorem OthersKept.dbg {s t : State} (h : OthersKept s t) : t.dbg = s.dbg := by
  have e := congrArg State.dbg h; exact e
theorem OthersKept.notices {s t : State} (h : OthersKept s t) : t.notices = s.notices := by
  have e := congrArg State.notices h; exact e
theorem OthersKept.failure {s t : State} (h : OthersKept s t) : t.failure = s.failure := by
  have e := congrArg State.failure h; exact e
theorem OthersKept.fault {s t : State} (h : OthersKept s t) : t.fault = s.fault := by
  have e := congrArg State.fault h; exact e

/-! ### Bus accesses, in order -/

variable {s t} {acc : List (AccessKind × Word)}

theorem Accessed.note (h : Accessed acc s t) (k : AccessKind) (x : Word) :
    Accessed (acc ++ [(k, x)]) s (noteAccess k x t) := by
  constructor
  · simp [List.foldl_append, h.1]
  · simp [List.foldl_append, h.2]

theorem Accessed.read (h : Accessed acc s t) (x : Word) : Accessed (acc ++ [(.read, x)]) s (read8 x t).2 := h.note _ _

theorem Accessed.write (h : Accessed acc s t) (x : Word) (v : Byte) :
    Accessed (acc ++ [(.write, x)]) s (write8 x v t) := by
  simpa [write8] using h.note .write x

theorem accessed_read8 (x : Word) : Accessed [(.read, x)] s (read8 x s).2 := (accessed_self s).read x

theorem accessed_write8 (x : Word) (v : Byte) : Accessed [(.write, x)] s (write8 x v s) := (accessed_self s).write x v

/-! ### Words on the bus and on the stack -/

theorem add_one_add_one (v : Word) : v + 1#16 + 1#16 = v + 2#16 := by rw [BitVec.add_assoc]; rfl

theorem memRead16_fst (x : Word) : (memRead16 x s).1 = wordOf (peek s (x + 1#16)) (peek s x) := rfl

theorem memRead16_spec (x : Word) : let u := (memRead16 x s).2
    u.cpu = s.cpu ∧ MemoryKept s u ∧ Accessed (reads [x, x + 1#16]) s u ∧ OthersKept s u :=
  ⟨rfl, MemoryKept.of_eq rfl rfl rfl, (accessed_read8 x).read _, rfl⟩

theorem memWrite16_spec (hw : Memory.wf s.cfg s.mem = true) (x v : Word) : let u := memWrite16 x v s
    u.cpu = s.cpu ∧ Stored [(x, loByte v), (x + 1#16, hiByte v)] s u ∧
      Accessed (writes [x, x + 1#16]) s u ∧ OthersKept s u :=
  ⟨rfl, stored_memWrite16 hw x v, (accessed_write8 x _).write _ _, by simp [memWrite16]⟩

/-- All that pushing a word does. -/
theorem pushWord_spec (hw : Memory.wf s.cfg s.mem = true) (v : Word) : let u := pushWord v s
    u.cpu = { s.cpu with sp := s.cpu.sp - 2#16 } ∧
      Stored [(s.cpu.sp - 1#16, hiByte v), (s.cpu.sp - 2#16, loByte v)] s u ∧
      Accessed (writes [s.cpu.sp - 1#16, s.cpu.sp - 2#16]) s u ∧ OthersKept s u := by
  refine ⟨?_, stored_pushWord hw v, ?_, by simp [pushWord]⟩
  · rw [← sub_one_sub_one]; rfl
  · rw [← sub_one_sub_one]; exact ⟨rfl, rfl⟩

/-- All that popping a word does. -/
theorem popWord_spec : let u := (popWord s).2
    (popWord s).1 = wordOf (peek s (s.cpu.sp + 1#16)) (peek s s.cpu.sp) ∧
      u.cpu = { s.cpu with sp := s.cpu.sp + 2#16 } ∧ MemoryKept s u ∧
      Accessed (reads [s.cpu.sp, s.cpu.sp + 1#16]) s u ∧ OthersKept s u := by
  refine ⟨rfl, ?_, MemoryKept.of_eq rfl rfl rfl, ⟨rfl, rfl⟩, by simp [popWord]⟩
  rw [← add_one_add_one]; rfl

/-- All that exchanging the top of the stack does. -/
theorem exchangeTop_spec (hw : Memory.wf s.cfg s.mem = true) (v : Word) : let u := (exchangeTop v s).2
    (exchangeTop v s).1 = wordOf (peek s (s.cpu.sp + 1#16)) (peek s s.cpu.sp) ∧ u.cpu = s.cpu ∧
      Stored [(s.cpu.sp + 1#16, hiByte v), (s.cpu.sp, loByte v)] s u ∧
      Accessed (reads [s.cpu.sp, s.cpu.sp + 1#16] ++ writes [s.cpu.sp + 1#16, s.cpu.sp]) s u ∧ OthersKept s u := by
  set r := (read8 (s.cpu.sp + 1#16) (read8 s.cpu.sp s).2).2 with hr
  have hc : r.cfg = s.cfg := rfl
  have hs : r.slots = s.slots := rfl
  have hm : r.mem = s.mem := rfl
  have hu : (exchangeTop v s).2 = write8 s.cpu.sp (loByte v) (write8 (s.cpu.sp + 1#16) (hiByte v) r) := rfl
  have hwr : Memory.wf r.cfg r.mem = true := by rw [hc, hm]; exact hw
  refine ⟨rfl, by rw [hu]; simp [hr], ?_, ?_, by rw [hu]; simp [hr]⟩
  · rw [hu]
    exact (((Stored.refl s).congr hc hs hm).write8 hc hs hwr _ (hiByte v)).write8
      (by simpa using hc) (by simpa using hs) (write8_wf hwr _ _) _ _
  · rw [hu]
    exact (((accessed_read8 s.cpu.sp).read (s.cpu.sp + 1#16)).write _ _).write _ _

end Sys2Proof.Machine
end

