-- ==== Sys2Proof/Laws/Ports.lean ====
section
/-! SUPPORT. The port dispatcher: what a port access can change, what its answer depends on, and that the slot table
stays allowed. -/

namespace Sys2Proof.Machine

variable {s t u : State}

/-! ### What a port access can change -/

/-- Only the port items may differ: the CPU, memory, bus records, T-states and draws are the same, and so is the rest. -/
def PortsOnly (s t : State) : Prop :=
  t.cpu = s.cpu ∧ t.mem = s.mem ∧ t.watch = s.watch ∧ t.activity = s.activity ∧ t.tIns = s.tIns ∧
    t.draws = s.draws ∧ OthersKeptButPorts s t

theorem PortsOnly.refl (s : State) : PortsOnly s s := ⟨rfl, rfl, rfl, rfl, rfl, rfl, rfl⟩

theorem PortsOnly.trans (h : PortsOnly s t) (h' : PortsOnly t u) : PortsOnly s u := by
  obtain ⟨h1, h2, h3, h4, h5, h6, h7⟩ := h
  obtain ⟨g1, g2, g3, g4, g5, g6, g7⟩ := h'
  refine ⟨g1.trans h1, g2.trans h2, g3.trans h3, g4.trans h4, g5.trans h5, g6.trans h6, ?_⟩
  rcases s with ⟨_, _, _, _, _, _, _, _, _, _, _, _, _, _, ⟨⟩, _, _, _, _, _⟩
  rcases t with ⟨_, _, _, _, _, _, _, _, _, _, _, _, _, _, ⟨⟩, _, _, _, _, _⟩
  rcases u with ⟨_, _, _, _, _, _, _, _, _, _, _, _, _, _, ⟨⟩, _, _, _, _, _⟩
  simp_all [OthersKeptButPorts]

theorem PortsOnly.cfg (h : PortsOnly s t) : t.cfg = s.cfg := by
  have e := h.2.2.2.2.2.2; have e' := congrArg State.cfg e; exact e'
theorem PortsOnly.pc0 (h : PortsOnly s t) : t.pc0 = s.pc0 := by
  have e := h.2.2.2.2.2.2; have e' := congrArg State.pc0 e; exact e'
theorem PortsOnly.fault (h : PortsOnly s t) : t.fault = s.fault := by
  have e := h.2.2.2.2.2.2; have e' := congrArg State.fault e; exact e'
theorem PortsOnly.tCall (h : PortsOnly s t) : t.tCall = s.tCall := by
  have e := h.2.2.2.2.2.2; have e' := congrArg State.tCall e; exact e'
theorem PortsOnly.tTotal (h : PortsOnly s t) : t.tTotal = s.tTotal := by
  have e := h.2.2.2.2.2.2; have e' := congrArg State.tTotal e; exact e'
theorem PortsOnly.load (h : PortsOnly s t) : t.load = s.load := by
  have e := h.2.2.2.2.2.2; have e' := congrArg State.load e; exact e'
theorem PortsOnly.coverage (h : PortsOnly s t) : t.coverage = s.coverage := by
  have e := h.2.2.2.2.2.2; have e' := congrArg State.coverage e; exact e'
theorem PortsOnly.dbg (h : PortsOnly s t) : t.dbg = s.dbg := by
  have e := h.2.2.2.2.2.2; have e' := congrArg State.dbg e; exact e'
theorem PortsOnly.notices (h : PortsOnly s t) : t.notices = s.notices := by
  have e := h.2.2.2.2.2.2; have e' := congrArg State.notices e; exact e'

theorem runRead_ports (port : Word) (s : State) (h : ReadHandler) : PortsOnly s (runRead port s h).2 := by
  cases h <;> exact ⟨rfl, rfl, rfl, rfl, rfl, rfl, rfl⟩

theorem readGenerics_ports (port : Word) (hs : List ReadHandler) (acc : Byte) (s : State) :
    PortsOnly s (readGenerics port hs acc s).2 := by
  induction hs generalizing acc s with
  | nil => exact PortsOnly.refl s
  | cons h rest ih => exact (runRead_ports port s h).trans (ih _ _)

theorem portRead_ports (port : Word) (s : State) : PortsOnly s (portRead port s).2 := by
  unfold portRead
  split
  · exact runRead_ports _ _ _
  · exact readGenerics_ports _ _ _ _

theorem recordFailure_ports (f : Failure) (s : State) : PortsOnly s (recordFailure f s) :=
  ⟨rfl, rfl, rfl, rfl, rfl, rfl, rfl⟩

theorem applyBankRule_ports (port : Word) (v : Byte) (s : State) : PortsOnly s (applyBankRule port v s) := by
  unfold applyBankRule
  repeat' split
  all_goals exact ⟨rfl, rfl, rfl, rfl, rfl, rfl, rfl⟩

theorem runWrite_ports (port : Word) (v : Byte) (s : State) (h : WriteHandler) :
    PortsOnly s (runWrite port v s h) := by
  cases h with
  | record => exact ⟨rfl, rfl, rfl, rfl, rfl, rfl, rfl⟩
  | ula => exact ⟨rfl, rfl, rfl, rfl, rfl, rfl, rfl⟩
  | bankRule => exact applyBankRule_ports port v s
  | device id =>
    simp only [runWrite]
    split <;> exact ⟨rfl, rfl, rfl, rfl, rfl, rfl, rfl⟩

theorem writeGenerics_ports (port : Word) (v : Byte) (hs : List WriteHandler) (s : State) :
    PortsOnly s (writeGenerics port v hs s) := by
  induction hs generalizing s with
  | nil => exact PortsOnly.refl s
  | cons h rest ih => exact (runWrite_ports port v s h).trans (ih _)

theorem portWrite_ports (port : Word) (v : Byte) (s : State) : PortsOnly s (portWrite port v s) := by
  unfold portWrite
  split
  · exact (runWrite_ports _ _ _ _).trans (writeGenerics_ports _ _ _ _)
  · exact writeGenerics_ports _ _ _ _

/-! ### A read changes no slot, script or failure -/

theorem runRead_rest (port : Word) (s : State) (h : ReadHandler) : let t := (runRead port s h).2
    t.slots = s.slots ∧ t.script = s.script ∧ t.failure = s.failure := by
  cases h <;> exact ⟨rfl, rfl, rfl⟩

theorem readGenerics_rest (port : Word) (hs : List ReadHandler) (acc : Byte) (s : State) :
    let t := (readGenerics port hs acc s).2
    t.slots = s.slots ∧ t.script = s.script ∧ t.failure = s.failure := by
  induction hs generalizing acc s with
  | nil => exact ⟨rfl, rfl, rfl⟩
  | cons h rest ih =>
    obtain ⟨h1, h2, h3⟩ := runRead_rest port s h
    obtain ⟨g1, g2, g3⟩ := ih (combineBytes (runRead port s h).2.cfg.portPolicy acc (runRead port s h).1)
      (runRead port s h).2
    exact ⟨g1.trans h1, g2.trans h2, g3.trans h3⟩

theorem portRead_rest (port : Word) (s : State) : let t := (portRead port s).2
    t.slots = s.slots ∧ t.script = s.script ∧ t.failure = s.failure := by
  simp only [portRead]
  split
  · exact runRead_rest _ _ _
  · exact readGenerics_rest _ _ _ _

/-! ### What a port access depends on -/

/-- Two states alike to the port dispatcher. -/
def SamePorts (s t : State) : Prop :=
  t.cfg = s.cfg ∧ t.periph = s.periph ∧ t.script = s.script ∧ t.slots = s.slots ∧ t.ula = s.ula ∧ t.failure = s.failure

theorem runRead_congr (h : SamePorts s t) (port : Word) (hd : ReadHandler) :
    (runRead port t hd).1 = (runRead port s hd).1 ∧ SamePorts (runRead port s hd).2 (runRead port t hd).2 := by
  obtain ⟨h1, h2, h3, h4, h5, h6⟩ := h
  cases hd <;> simp [runRead, ulaPortEvent, SamePorts, h1, h2, h3, h4, h5, h6]

theorem readGenerics_congr (h : SamePorts s t) (port : Word) (hs : List ReadHandler) (acc : Byte) :
    (readGenerics port hs acc t).1 = (readGenerics port hs acc s).1 ∧
      SamePorts (readGenerics port hs acc s).2 (readGenerics port hs acc t).2 := by
  induction hs generalizing acc s t with
  | nil => exact ⟨rfl, h⟩
  | cons hd rest ih =>
    obtain ⟨h1, h2⟩ := runRead_congr h port hd
    simp only [readGenerics, h1, h2.1]
    exact ih h2 _

theorem portRead_congr (h : SamePorts s t) (port : Word) :
    (portRead port t).1 = (portRead port s).1 ∧ SamePorts (portRead port s).2 (portRead port t).2 := by
  simp only [portRead, h.1, Config.portIdle]
  split
  · exact runRead_congr h port _
  · exact readGenerics_congr h port _ _

theorem applyBankRule_congr (h : SamePorts s t) (port : Word) (v : Byte) :
    SamePorts (applyBankRule port v s) (applyBankRule port v t) := by
  obtain ⟨h1, h2, h3, h4, h5, h6⟩ := h
  simp only [applyBankRule, h1, h3, h4]
  repeat' split
  all_goals simp [SamePorts, recordFailure, h1, h2, h3, h4, h5, h6]

theorem runWrite_congr (h : SamePorts s t) (port : Word) (v : Byte) (hd : WriteHandler) :
    SamePorts (runWrite port v s hd) (runWrite port v t hd) := by
  cases hd with
  | bankRule => exact applyBankRule_congr h port v
  | record => obtain ⟨h1, h2, h3, h4, h5, h6⟩ := h; simp [runWrite, SamePorts, h1, h2, h3, h4, h5, h6]
  | ula => obtain ⟨h1, h2, h3, h4, h5, h6⟩ := h; simp [runWrite, ulaPortEvent, SamePorts, h1, h2, h3, h4, h5, h6]
  | device id =>
    obtain ⟨h1, h2, h3, h4, h5, h6⟩ := h
    simp only [runWrite, h2]
    split <;> simp [recordFailure, SamePorts, h1, h2, h3, h4, h5, h6]

theorem writeGenerics_congr (h : SamePorts s t) (port : Word) (v : Byte) (hs : List WriteHandler) :
    SamePorts (writeGenerics port v hs s) (writeGenerics port v hs t) := by
  induction hs generalizing s t with
  | nil => exact h
  | cons hd rest ih => exact ih (runWrite_congr h port v hd)

theorem portWrite_congr (h : SamePorts s t) (port : Word) (v : Byte) :
    SamePorts (portWrite port v s) (portWrite port v t) := by
  have hc := h.1
  simp only [portWrite, hc]
  split
  · have h' := runWrite_congr h port v ‹Word × WriteHandler›.2
    have hs := (runWrite_ports port v s ‹Word × WriteHandler›.2).cfg
    have ht := (runWrite_ports port v t ‹Word × WriteHandler›.2).cfg
    rw [hs, ht, hc]
    exact writeGenerics_congr h' port v _
  · simp only [hc]
    exact writeGenerics_congr h port v _

/-! ### The slot table stays allowed (20_memory.md R99, R100) -/

theorem tableAllowed_set {cfg : Config} {table : List Nat} (h : cfg.tableAllowed table = true) {slot bank : Nat}
    (hp : cfg.pairAllowed slot bank = true) : cfg.tableAllowed (table.set slot bank) = true := by
  simp only [Config.tableAllowed, Bool.and_eq_true, beq_iff_eq, List.all_eq_true, List.length_set] at h ⊢
  refine ⟨h.1, fun e he => ?_⟩
  rw [List.mem_zipIdx_iff_getElem?] at he
  by_cases hs : slot = e.2
  · have : e.1 = bank := by
      rw [← hs, List.getElem?_set_self' ] at he
      cases hg : table[slot]? <;> simp_all
    rw [this, ← hs]; exact hp
  · rw [List.getElem?_set_ne hs] at he
    exact h.2 e (List.mem_zipIdx_iff_getElem?.mpr he)

theorem tableAllowed_assignSlots {cfg : Config} {table : List Nat} (h : cfg.tableAllowed table = true)
    {assignments : List (Nat × Nat)} (hp : ∀ sb ∈ assignments, cfg.pairAllowed sb.1 sb.2 = true) :
    cfg.tableAllowed (assignSlots table assignments) = true := by
  induction assignments generalizing table with
  | nil => exact h
  | cons sb rest ih =>
    exact ih (tableAllowed_set h (hp sb (by simp))) (fun x hx => hp x (by simp [hx]))

theorem applyBankRule_tableAllowed (port : Word) (v : Byte) (h : s.cfg.tableAllowed s.slots = true) :
    s.cfg.tableAllowed (applyBankRule port v s).slots = true := by
  unfold applyBankRule
  repeat' split
  all_goals first
    | exact h
    | (refine tableAllowed_assignSlots h fun sb hsb => ?_
       have := List.find?_eq_none.mp ‹_› sb hsb
       simpa using this)

theorem runWrite_tableAllowed (port : Word) (v : Byte) (hd : WriteHandler) (h : s.cfg.tableAllowed s.slots = true) :
    s.cfg.tableAllowed (runWrite port v s hd).slots = true := by
  cases hd with
  | bankRule => exact applyBankRule_tableAllowed port v h
  | record => exact h
  | ula => exact h
  | device id => simp only [runWrite]; split <;> exact h

theorem writeGenerics_tableAllowed (port : Word) (v : Byte) (hs : List WriteHandler)
    (h : s.cfg.tableAllowed s.slots = true) : s.cfg.tableAllowed (writeGenerics port v hs s).slots = true := by
  induction hs generalizing s with
  | nil => exact h
  | cons hd rest ih =>
    have hc := (runWrite_ports port v s hd).cfg
    have := ih (s := runWrite port v s hd) (by rw [hc]; exact runWrite_tableAllowed port v hd h)
    rwa [hc] at this

theorem portWrite_tableAllowed (port : Word) (v : Byte) (h : s.cfg.tableAllowed s.slots = true) :
    s.cfg.tableAllowed (portWrite port v s).slots = true := by
  unfold portWrite
  split
  · rename_i entry _
    have hc := (runWrite_ports port v s entry.2).cfg
    have := writeGenerics_tableAllowed port v (runWrite port v s entry.2).cfg.writeGeneric
      (s := runWrite port v s entry.2) (by rw [hc]; exact runWrite_tableAllowed port v entry.2 h)
    simp only
    rw [hc] at this ⊢
    exact this
  · exact writeGenerics_tableAllowed port v _ h

end Sys2Proof.Machine
end

