-- ==== Sys2Proof/Laws/Exec.lean ====
section
/-! SUPPORT. What any instruction can do, said once: a property kept by every register write, bus access, port access
and draw is kept by every instruction, and every instruction answers a next state. -/

namespace Sys2Proof.Machine

/-- A property of states kept by everything an instruction is made of. Register writes leave the deferred request and
the countdown alone. -/
structure Closed (P : State → Prop) : Prop where
  regs : ∀ {s} (c : Cpu), P s → c.intDeferred = s.cpu.intDeferred → c.intCountdown = s.cpu.intCountdown →
    P { s with cpu := c }
  draws : ∀ {s} (n : Nat), P s → P { s with draws := n }
  cost : ∀ {s} (n : Nat), P s → P (setTIns n s)
  note : ∀ {s} (k : AccessKind) (x : Word), P s → P (noteAccess k x s)
  store : ∀ {s} (x : Word) (v : Byte), P s → P (poke false x v s)
  input : ∀ {s} (port : Word), P s → P (portRead port s).2
  output : ∀ {s} (port : Word) (v : Byte), P s → P (portWrite port v s)

variable {P : State → Prop} {s : State}

namespace Closed

variable (h : Closed P)
include h

theorem setPC (hs : P s) (v : Word) : P (setPC v s) := h.regs _ hs rfl rfl
theorem setSP (hs : P s) (v : Word) : P (setSP v s) := h.regs _ hs rfl rfl
theorem incR (hs : P s) : P (incR s) := h.regs _ hs rfl rfl
theorem setBC (hs : P s) (v : Word) : P (setBC v s) := h.regs _ hs rfl rfl
theorem setDE (hs : P s) (v : Word) : P (setDE v s) := h.regs _ hs rfl rfl
theorem setHL (hs : P s) (v : Word) : P (setHL v s) := h.regs _ hs rfl rfl
theorem setAF (hs : P s) (v : Word) : P (setAF v s) := h.regs _ hs rfl rfl
theorem setIX (hs : P s) (v : Word) : P (setIX v s) := h.regs _ hs rfl rfl
theorem setIY (hs : P s) (v : Word) : P (setIY v s) := h.regs _ hs rfl rfl
theorem setA (hs : P s) (v : Byte) : P (setA v s) := h.regs _ hs rfl rfl
theorem setB (hs : P s) (v : Byte) : P (setB v s) := h.regs _ hs rfl rfl
theorem setR8 (hs : P s) (g : Reg8) (v : Byte) : P (setR8 g v s) := by cases g <;> exact h.regs _ hs rfl rfl
theorem setR16 (hs : P s) (g : Reg16) (v : Word) : P (setR16 g v s) := by cases g <;> exact h.regs _ hs rfl rfl
theorem setR16AF (hs : P s) (g : Reg16AF) (v : Word) : P (setR16AF g v s) := by cases g <;> exact h.regs _ hs rfl rfl
theorem setFlags (hs : P s) (fs : FlagSet) : P (setFlags fs s) :=
  h.draws (s.draws + 8) (h.regs (Machine.setFlags fs s).cpu hs rfl rfl)
theorem read8 (hs : P s) (x : Word) : P (read8 x s).2 := h.note _ _ hs
theorem write8 (hs : P s) (x : Word) (v : Byte) : P (write8 x v s) := h.store _ _ (h.note _ _ hs)
theorem memRead16 (hs : P s) (x : Word) : P (memRead16 x s).2 := h.read8 (h.read8 hs _) _
theorem memWrite16 (hs : P s) (x v : Word) : P (memWrite16 x v s) := h.write8 (h.write8 hs _ _) _ _
theorem pushWord (hs : P s) (v : Word) : P (pushWord v s) :=
  h.write8 (h.setSP (h.write8 (h.setSP hs _) _ _) _) _ _
theorem popWord (hs : P s) : P (popWord s).2 := h.setSP (h.read8 (h.setSP (h.read8 hs _) _) _) _
theorem exchangeTop (hs : P s) (v : Word) : P (exchangeTop v s).2 :=
  h.write8 (h.write8 (h.read8 (h.read8 hs _) _) _ _) _ _
theorem modifyReg (hs : P s) (g : Reg8) (f : Byte → Byte × FlagSet) : P (modifyReg g f s) :=
  h.setFlags (h.setR8 hs _ _) _
theorem modifyAt (hs : P s) (x : Word) (f : Byte → Byte × FlagSet) : P (modifyAt x f s) :=
  h.setFlags (h.write8 (h.read8 hs _) _ _) _
theorem rewriteAt (hs : P s) (x : Word) (f : Byte → Byte) : P (rewriteAt x f s) := h.write8 (h.read8 hs _) _ _
theorem rotateA (hs : P s) (f : Byte → Byte × Bool) : P (rotateA f s) := h.setFlags (h.setA hs _) _
theorem addIn (hs : P s) (v : Byte) : P (addIn v s) := h.setFlags (h.setA hs _) _
theorem adcIn (hs : P s) (v : Byte) : P (adcIn v s) := h.setFlags (h.setA hs _) _
theorem subIn (hs : P s) (v : Byte) : P (subIn v s) := h.setFlags (h.setA hs _) _
theorem sbcIn (hs : P s) (v : Byte) : P (sbcIn v s) := h.setFlags (h.setA hs _) _
theorem andIn (hs : P s) (v : Byte) : P (andIn v s) := h.setFlags (h.setA hs _) _
theorem orIn (hs : P s) (v : Byte) : P (orIn v s) := h.setFlags (h.setA hs _) _
theorem xorIn (hs : P s) (v : Byte) : P (xorIn v s) := h.setFlags (h.setA hs _) _
theorem cpIn (hs : P s) (v : Byte) : P (cpIn v s) := h.setFlags hs _
theorem blockMove (hs : P s) (d : Word) : P (blockMove d s) :=
  h.setFlags (h.setBC (h.setDE (h.setHL (h.write8 (h.read8 hs _) _ _) _) _) _) _
theorem blockSearch (hs : P s) (d : Word) : P (blockSearch d s) :=
  h.setFlags (h.setBC (h.setHL (h.read8 hs _) _) _) _
theorem blockInput (hs : P s) (d : Word) : P (blockInput d s) :=
  h.setFlags (h.setHL (h.setB (h.write8 (h.input (bc s) hs) _ _) _) _) _
theorem blockOutput (hs : P s) (d : Word) : P (blockOutput d s) :=
  h.setFlags (h.setHL (h.output _ _ (h.setB (h.read8 hs (hl s)) _)) _) _
theorem returnFrom (hs : P s) : P (returnFrom s) := h.setPC (h.popWord hs) _
theorem returnFromNmi (hs : P s) : P (returnFromNmi s) :=
  h.regs (Machine.returnFromNmi s).cpu (h.returnFrom hs) rfl rfl
theorem callTo (hs : P s) (v : Word) : P (callTo v s) := h.setPC (h.pushWord hs _) _

end Closed

/-- The outcome is a next state with the property. -/
def Next (P : State → Prop) (r : Result) : Prop := ∃ t, r = .next t ∧ P t

theorem Next.done (h : Closed P) (hs : P s) (n : Nat) : Next P (done n s) := ⟨_, rfl, h.cost n hs⟩

theorem Next.repeatWhile (h : Closed P) (hs : P s) (more : Bool) : Next P (repeatWhile more s) := by
  unfold Machine.repeatWhile
  split
  · exact .done h (h.setPC hs _) _
  · exact .done h hs _

theorem Next.repeatWhileB (h : Closed P) (hs : P s) : Next P (repeatWhileB s) := by
  unfold Machine.repeatWhileB
  split
  · exact .done h (h.setPC hs _) _
  · exact .done h hs _

theorem Next.relJumpIf (h : Closed P) (hs : P s) (taken : Bool) (e : Byte) : Next P (relJumpIf taken e s) := by
  unfold Machine.relJumpIf
  split
  · exact .done h (h.setPC hs _) _
  · exact .done h hs _

/-- Every instruction answers a next state, and keeps every closed property. -/
theorem exec_closed (h : Closed P) (hs : P s) (i : Instr) : Next P (exec i s) := by
  cases i
  case inAN n => exact .done h (h.setA (h.input _ hs) _) _
  case inRC dst => exact .done h (h.setFlags (h.setR8 (h.input (bc s) hs) _ _) _) _
  case ini => exact .done h (h.blockInput hs _) _
  case ind => exact .done h (h.blockInput hs _) _
  case inir => exact .repeatWhileB h (h.blockInput hs _)
  case indr => exact .repeatWhileB h (h.blockInput hs _)
  case outNA n => exact .done h (h.output _ _ hs) _
  case outCR src => exact .done h (h.output _ _ hs) _
  case outi => exact .done h (h.blockOutput hs _) _
  case outd => exact .done h (h.blockOutput hs _) _
  case otir => exact .repeatWhileB h (h.blockOutput hs _)
  case otdr => exact .repeatWhileB h (h.blockOutput hs _)
  case ldir => exact .repeatWhile h (h.blockMove hs _) _
  case lddr => exact .repeatWhile h (h.blockMove hs _) _
  case cpir => exact .repeatWhile h (h.blockSearch hs _) _
  case cpdr => exact .repeatWhile h (h.blockSearch hs _) _
  case jrC e => exact .relJumpIf h hs _ e
  case jrNC e => exact .relJumpIf h hs _ e
  case jrZ e => exact .relJumpIf h hs _ e
  case jrNZ e => exact .relJumpIf h hs _ e
  case djnz e =>
    simp only [exec, execDjnz]
    split
    · exact .done h (h.setPC (h.setB hs _) _) _
    · exact .done h (h.setB hs _) _
  case jpCCNN cc nn =>
    refine .done h ?_ _
    split
    · exact h.setPC hs _
    · exact hs
  case callCCNN cc nn =>
    simp only [exec, execCallCCNN]
    split
    · exact .done h (h.callTo hs _) _
    · exact .done h hs _
  case retCC cc =>
    simp only [exec, execRetCC]
    split
    · exact .done h (h.returnFrom hs) _
    · exact .done h hs _
  case retn => exact .done h (h.returnFromNmi hs) _
  all_goals
    refine .done h ?_ _
    repeat' with_reducible first
      | exact hs
      | refine h.setR8 ?_ _ _
      | refine h.setFlags ?_ _
      | refine h.setA ?_ _
      | refine h.write8 ?_ _ _
      | refine h.note _ _ ?_
      | refine h.modifyReg ?_ _ _
      | refine h.modifyAt ?_ _ _
      | refine h.rewriteAt ?_ _ _
      | refine h.rotateA ?_ _
      | refine h.addIn ?_ _
      | refine h.adcIn ?_ _
      | refine h.subIn ?_ _
      | refine h.sbcIn ?_ _
      | refine h.andIn ?_ _
      | refine h.orIn ?_ _
      | refine h.xorIn ?_ _
      | refine h.cpIn ?_ _
      | refine h.setR16 ?_ _ _
      | refine h.setR16AF ?_ _ _
      | refine h.setHL ?_ _
      | refine h.setDE ?_ _
      | refine h.setIX ?_ _
      | refine h.setIY ?_ _
      | refine h.setSP ?_ _
      | refine h.setPC ?_ _
      | refine h.memWrite16 ?_ _ _
      | refine h.pushWord ?_ _
      | refine h.callTo ?_ _
      | exact h.returnFrom hs
      | exact h.blockMove hs _
      | exact h.blockSearch hs _
      | exact h.regs _ hs rfl rfl

/-- Every instruction answers a next state. -/
theorem exec_next (i : Instr) (s : State) : ∃ t, exec i s = .next t :=
  let ⟨t, h, _⟩ := exec_closed (P := fun _ => True) ⟨fun _ _ _ _ => trivial, fun _ _ => trivial, fun _ _ => trivial,
    fun _ _ _ => trivial, fun _ _ _ => trivial, fun _ _ => trivial, fun _ _ _ => trivial⟩ trivial i
  ⟨t, h⟩

end Sys2Proof.Machine
end

