-- ==== Sys2Proof/Laws/Host.lean ====
section
/-! SUPPORT. The registers as the host names them, in terms of the register set. -/

namespace Sys2Proof.Machine

variable (s : State)

@[simp] theorem hostGet16_bc : hostGet16 s .bc = bc s := rfl
@[simp] theorem hostGet16_de : hostGet16 s .de = de s := rfl
@[simp] theorem hostGet16_hl : hostGet16 s .hl = hl s := rfl
@[simp] theorem hostGet16_af : hostGet16 s .af = af s := rfl
@[simp] theorem hostGet16_altBC : hostGet16 s .altBC = wordOf s.cpu.altB s.cpu.altC := rfl
@[simp] theorem hostGet16_altDE : hostGet16 s .altDE = wordOf s.cpu.altD s.cpu.altE := rfl
@[simp] theorem hostGet16_altHL : hostGet16 s .altHL = wordOf s.cpu.altH s.cpu.altL := rfl
@[simp] theorem hostGet16_altAF : hostGet16 s .altAF = wordOf s.cpu.altA s.cpu.altF.toByte := rfl
@[simp] theorem hostGet16_ix : hostGet16 s .ix = s.cpu.ix := rfl
@[simp] theorem hostGet16_iy : hostGet16 s .iy = s.cpu.iy := rfl
@[simp] theorem hostGet16_sp : hostGet16 s .sp = s.cpu.sp := rfl
@[simp] theorem hostGet16_pc : hostGet16 s .pc = s.cpu.pc := rfl

@[simp] theorem hostGet16_pairOf16 (r : Reg16) : hostGet16 s (pairOf16 r) = r16 s r := by cases r <;> rfl

@[simp] theorem hostGet16_pairOf16AF (r : Reg16AF) : hostGet16 s (pairOf16AF r) = r16AF s r := by cases r <;> rfl

end Sys2Proof.Machine
end

