-- ==== Sys2Proof/Laws/Step.lean ====
section
/-! SUPPORT. Fetch, interrupt entry and the parts of a step: what each can change. -/

namespace Sys2Proof.Machine

variable {s t : State} {P : State → Prop}

/-! ### Fetch -/

/-- A fetch changes `R`, the bus records, the ULA's line records and the character it keeps, and nothing else. -/
def FetchOnly (s t : State) : Prop :=
  t = { s with
    cpu := { s.cpu with r := t.cpu.r }
    watch := t.watch
    activity := t.activity
    ula := { s.ula with scanRec := t.ula.scanRec, colorRec := t.ula.colorRec, pendingChar := t.ula.pendingChar } }

theorem FetchOnly.refl (s : State) : FetchOnly s s := rfl

theorem FetchOnly.trans {u : State} (h : FetchOnly s t) (h' : FetchOnly t u) : FetchOnly s u := by
  unfold FetchOnly at *
  rw [h']
  rw [h]

theorem read8_fetchOnly (a : Word) (s : State) : FetchOnly s (read8 a s).2 := rfl

theorem incR_fetchOnly (s : State) : FetchOnly s (incR s) := rfl

theorem ulaIntercept_fetchOnly (pc0 : Word) (b : Byte) (s : State) : FetchOnly s (ulaIntercept pc0 b s).2 := by
  unfold ulaIntercept
  split
  · split <;> rfl
  · rfl

/-- Showing a character changes the two line records alone. -/
theorem showCharacter_only (pc0 : Word) (b : Byte) (s : State) : let t := showCharacter pc0 b s
    t = { s with ula := { s.ula with scanRec := t.ula.scanRec, colorRec := t.ula.colorRec } } := rfl

/-- Showing the kept character changes the two line records and forgets it. -/
theorem showPending_only (s : State) : let t := showPending s
    t = { s with ula := { s.ula with
      scanRec := t.ula.scanRec, colorRec := t.ula.colorRec, pendingChar := none } } := by
  cases h : s.ula.pendingChar <;> simp [showPending, showCharacter, h]
  rw [← h]

/-- No character is kept after the kept one is shown. -/
@[simp] theorem showPending_pendingChar (s : State) : (showPending s).ula.pendingChar = none := by
  cases h : s.ula.pendingChar <;> simp [showPending, showCharacter, h]

theorem fetchFirst_fetchOnly (s : State) : FetchOnly s (fetchFirst s).2 := by
  have h : FetchOnly s { (read8 s.cpu.pc s).2 with activity := markExecuted s.cpu.pc (read8 s.cpu.pc s).2.activity } :=
    rfl
  by_cases hi : intercepts
      { (read8 s.cpu.pc s).2 with activity := markExecuted s.cpu.pc (read8 s.cpu.pc s).2.activity } s.cpu.pc = true
  · have e : fetchFirst s = ulaIntercept s.cpu.pc (read8 s.cpu.pc s).1
        { (read8 s.cpu.pc s).2 with activity := markExecuted s.cpu.pc (read8 s.cpu.pc s).2.activity } := if_pos hi
    rw [e]
    exact h.trans (ulaIntercept_fetchOnly _ _ _)
  · have e : fetchFirst s = ((read8 s.cpu.pc s).1,
        { (read8 s.cpu.pc s).2 with activity := markExecuted s.cpu.pc (read8 s.cpu.pc s).2.activity }) := if_neg hi
    rw [e]
    exact h

theorem fetchBytes_fetchOnly (a : Word) (n : Nat) (s : State) : FetchOnly s (fetchBytes a n s).2 := by
  induction n generalizing a s with
  | zero => exact FetchOnly.refl s
  | succ n ih => exact (read8_fetchOnly a s).trans (ih _ _)

theorem fetchMain_fetchOnly (pc0 : Word) (b1 : Byte) (s : State) : FetchOnly s (fetchMain pc0 b1 s).2 :=
  fetchBytes_fetchOnly _ _ s

theorem fetchPrefixed_fetchOnly (pc0 : Word) (b1 : Byte) (s : State) : FetchOnly s (fetchPrefixed pc0 b1 s).2 :=
  ((read8_fetchOnly _ s).trans (incR_fetchOnly _)).trans (fetchBytes_fetchOnly _ _ _)

/-- All that fetching an instruction changes. -/
theorem fetchInstr_fetchOnly (s : State) : FetchOnly s (fetchInstr s).2 := by
  have h := (fetchFirst_fetchOnly s).trans (incR_fetchOnly _)
  cases hp : Page.of (fetchFirst s).1 <;> simp only [fetchInstr, hp]
  · exact h.trans (fetchMain_fetchOnly _ _ _)
  all_goals exact h.trans (fetchPrefixed_fetchOnly _ _ _)

/-- Reading ahead gives the bytes that were there. -/
theorem fetchBytes_fst (a : Word) (n : Nat) (s : State) : (fetchBytes a n s).1 = readBlock s a n := by
  induction n generalizing a s with
  | zero => rfl
  | succ n ih =>
    simp only [fetchBytes, readBlock, read8, List.cons.injEq]
    refine ⟨rfl, ?_⟩
    rw [ih]
    clear ih
    generalize a + 1#16 = b
    induction n generalizing b with
    | zero => rfl
    | succ n ih => simp only [readBlock, ih, List.cons.injEq, and_true]; rfl

/-! ### Interrupt entry -/

theorem Closed.leaveHalt (h : Closed P) (hs : P s) : P (leaveHalt s) := by
  unfold Machine.leaveHalt
  split
  · exact h.regs _ hs rfl rfl
  · exact hs

theorem Closed.saveReturn (h : Closed P) (hs : P s) (nmi : Bool) : P (saveReturn nmi s) :=
  h.pushWord (h.regs (Machine.disableInterrupts nmi (Machine.incR (Machine.leaveHalt s))).cpu
    (h.incR (h.leaveHalt hs)) rfl rfl) _

theorem Closed.enterInterrupt (h : Closed P) (hs : P s) (nmi : Bool) (bus : Byte) :
    P (enterInterrupt nmi bus s).2 := by
  have hu := h.saveReturn hs nmi
  cases nmi
  · cases him : (Machine.saveReturn false s).cpu.im <;>
      simp only [Machine.enterInterrupt, him, Bool.false_eq_true, if_false]
    · exact h.setPC hu _
    · exact h.setPC hu _
    · exact h.setPC (h.memRead16 hu _) _
  · exact h.setPC hu _

/-- An interrupt that does not end in a fault keeps every closed property. -/
theorem Closed.generateInterrupt (h : Closed P) (hs : P s) (nmi : Bool) (bus : Byte)
    (hf : (generateInterrupt nmi bus s).2.fault = s.fault) : P (generateInterrupt nmi bus s).2 := by
  revert hf
  unfold Machine.generateInterrupt
  repeat' split
  · intro _; exact h.enterInterrupt hs true bus
  · intro _; exact hs
  · intro hf
    simp only at hf
    have : ({ s with fault := some (.im0Unsupported bus) } : State) = s := by rw [hf]
    rw [this]; exact hs
  · intro _; exact h.enterInterrupt hs false bus

theorem enterInterrupt_cost (nmi : Bool) (bus : Byte) (s : State) :
    11 ≤ (enterInterrupt nmi bus s).1 ∧ (enterInterrupt nmi bus s).1 ≤ 19 := by
  unfold enterInterrupt
  cases nmi
  · simp only [Bool.false_eq_true, if_false]
    split <;> simp
  · simp

/-- The T-states of an entry: at most 19, and 0 where no entry is made. -/
theorem generateInterrupt_cost (nmi : Bool) (bus : Byte) (s : State) : (generateInterrupt nmi bus s).1 ≤ 19 := by
  unfold generateInterrupt
  repeat' split
  all_goals first | exact Nat.zero_le _ | exact (enterInterrupt_cost _ _ _).2

/-- A property of CPU-independent fields survives an interrupt entry. -/
theorem closed_of_view {α : Type} (view : State → α) (v : α)
    (hregs : ∀ s c, view { s with cpu := c } = view s) (hdraws : ∀ s n, view { s with draws := n } = view s)
    (hcost : ∀ s n, view (setTIns n s) = view s) (hnote : ∀ s k x, view (noteAccess k x s) = view s)
    (hstore : ∀ s x w, view (poke false x w s) = view s) (hin : ∀ s p, view (portRead p s).2 = view s)
    (hout : ∀ s p w, view (portWrite p w s) = view s) : Closed (fun s => view s = v) where
  regs c h _ _ := (hregs _ c).trans h
  draws n h := (hdraws _ n).trans h
  cost n h := (hcost _ n).trans h
  note k x h := (hnote _ k x).trans h
  store x w h := (hstore _ x w).trans h
  input p h := (hin _ p).trans h
  output p w h := (hout _ p w).trans h

/-- What no instruction and no interrupt entry changes. -/
structure Fixed where
  cfg      : Config
  pc0      : Word
  tCall    : Nat
  tTotal   : Nat
  load     : Load
  coverage : List Word
  dbg      : Debug
  notices  : List Notice
  fault    : Option Fault
  deriving DecidableEq, Repr

/-- The items of a state that no instruction changes. -/
def fixed (s : State) : Fixed :=
  ⟨s.cfg, s.pc0, s.tCall, s.tTotal, s.load, s.coverage, s.dbg, s.notices, s.fault⟩

theorem PortsOnly.fixed (h : PortsOnly s t) : fixed t = fixed s := by
  simp only [Machine.fixed, h.cfg, h.pc0, h.tCall, h.tTotal, h.load, h.coverage, h.dbg, h.notices, h.fault]

theorem fixed_closed (v : Fixed) : Closed (fun s => fixed s = v) :=
  closed_of_view fixed v (fun _ _ => rfl) (fun _ _ => rfl) (fun _ _ => rfl) (fun _ _ _ => rfl) (fun _ _ _ => rfl)
    (fun _ _ => (portRead_ports _ _).fixed) (fun _ _ _ => (portWrite_ports _ _ _).fixed)

/-- No instruction changes the configuration, the accounting, the debug loop or the fault mark. -/
theorem exec_fixed (i : Instr) (h : exec i s = .next t) : fixed t = fixed s := by
  obtain ⟨u, hu, hf⟩ := exec_closed (fixed_closed (fixed s)) rfl i
  rw [hu] at h
  cases h
  exact hf

/-- No instruction and no interrupt entry changes the deferred request or the countdown. -/
theorem held_closed (d : Bool) (v : Int) : Closed (fun s => s.cpu.intDeferred = d ∧ s.cpu.intCountdown = v) where
  regs _ h hd hv := ⟨hd.trans h.1, hv.trans h.2⟩
  draws _ h := h
  cost _ h := h
  note _ _ h := h
  store _ _ h := h
  input port h := by rw [(portRead_ports port _).1]; exact h
  output port v h := by rw [(portWrite_ports port v _).1]; exact h

theorem exec_held (i : Instr) (h : exec i s = .next t) :
    t.cpu.intDeferred = s.cpu.intDeferred ∧ t.cpu.intCountdown = s.cpu.intCountdown := by
  obtain ⟨u, hu, hf⟩ := exec_closed (held_closed s.cpu.intDeferred s.cpu.intCountdown) ⟨rfl, rfl⟩ i
  rw [hu] at h
  cases h
  exact hf

/-- What an interrupt entry that does not end in a fault leaves alone. -/
theorem generateInterrupt_fixed (nmi : Bool) (bus : Byte) (hf : (generateInterrupt nmi bus s).2.fault = s.fault) :
    fixed (generateInterrupt nmi bus s).2 = fixed s ∧
      (generateInterrupt nmi bus s).2.cpu.intDeferred = s.cpu.intDeferred ∧
      (generateInterrupt nmi bus s).2.cpu.intCountdown = s.cpu.intCountdown :=
  ⟨(fixed_closed (fixed s)).generateInterrupt rfl nmi bus hf,
    (held_closed s.cpu.intDeferred s.cpu.intCountdown).generateInterrupt ⟨rfl, rfl⟩ nmi bus hf⟩

/-! ### What an accepted interrupt does before its vector -/

theorem leaveHalt_spec (s : State) : let u := leaveHalt s
    u.cpu = { s.cpu with pc := if s.cpu.halted then s.cpu.pc + 1#16 else s.cpu.pc, halted := false } ∧
      u.mem = s.mem ∧ Accessed [] s u ∧ OthersKept s u := by
  by_cases hh : s.cpu.halted = true
  · have e : leaveHalt s = { s with cpu := { s.cpu with pc := s.cpu.pc + 1#16, halted := false } } := if_pos hh
    rw [e]
    exact ⟨by simp [hh], rfl, ⟨rfl, rfl⟩, rfl⟩
  · have e : leaveHalt s = s := if_neg hh
    rw [e]
    refine ⟨?_, rfl, ⟨rfl, rfl⟩, rfl⟩
    rcases s with ⟨_, ⟨⟩, _, _, _, _, _, _, _, _, _, _, _, _, _, _, _, _, _, _⟩
    simp_all

/-- The registers, the two bytes stored, the two bus writes, and nothing else. -/
theorem saveReturn_spec (hw : Memory.wf s.cfg s.mem = true) (nmi : Bool) :
    let back := if s.cpu.halted then s.cpu.pc + 1#16 else s.cpu.pc
    let u := saveReturn nmi s
    u.cpu = { s.cpu with
        pc := back, sp := s.cpu.sp - 2#16, r := nextR s.cpu.r, halted := false
        iff1 := false, iff2 := if nmi then s.cpu.iff2 else false } ∧
      Stored [(s.cpu.sp - 1#16, hiByte back), (s.cpu.sp - 2#16, loByte back)] s u ∧
      Accessed (writes [s.cpu.sp - 1#16, s.cpu.sp - 2#16]) s u ∧ OthersKept s u := by
  obtain ⟨hc, hm, ha, ho⟩ := leaveHalt_spec s
  set l := leaveHalt s with hl
  have hcfg : l.cfg = s.cfg := ho.cfg
  have hslots : l.slots = s.slots := ho.slots
  set d := disableInterrupts nmi (incR l) with hd
  have hdc : d.cpu = { l.cpu with
      r := nextR l.cpu.r, iff1 := false, iff2 := if nmi then l.cpu.iff2 else false } := rfl
  have hwd : Memory.wf d.cfg d.mem = true := by
    have h1 : d.cfg = s.cfg := hcfg
    have h2 : d.mem = s.mem := hm
    rw [h1, h2]; exact hw
  obtain ⟨pc, ps, pa, po⟩ := pushWord_spec (s := d) hwd d.cpu.pc
  have hsp : d.cpu.sp = s.cpu.sp := by rw [hdc, hc]
  have hpc : d.cpu.pc = if s.cpu.halted then s.cpu.pc + 1#16 else s.cpu.pc := by rw [hdc, hc]
  have hu : saveReturn nmi s = pushWord d.cpu.pc d := rfl
  rw [hsp] at pc ps pa
  rw [hpc] at ps
  refine ⟨?_, ?_, ?_, ?_⟩
  · rw [hu, pc, hdc, hc]
  · rw [hu]
    rw [← hpc]
    exact Stored.of_start (by rw [← hpc] at ps; exact ps) hcfg hslots hm
  · have hdw : d.watch = s.watch := ha.1
    have hda : d.activity = s.activity := ha.2
    rw [hu]
    exact ⟨by rw [pa.1, hdw], by rw [pa.2, hda]⟩
  · rw [hu]
    have hod : OthersKept s d := by rw [hd]; simpa using ho
    simpa [pushWord] using hod

end Sys2Proof.Machine
end

