-- ==== Sys2Proof/Laws/Invariant.lean ====
section
/-! SUPPORT. The invariant of a state is kept by everything an instruction is made of. -/

namespace Sys2Proof.Machine

variable {s t : State}

theorem markAccess_wf (k : AccessKind) (a : Word) {m : List (Nat × Marks)}
    (h : Sparse.wf (fun _ => noMarks) m = true) : Sparse.wf (fun _ => noMarks) (markAccess k a m) = true := by
  cases k <;> exact Sparse.wf_set (dflt := fun _ => noMarks) h

theorem markExecuted_wf (a : Word) {m : List (Nat × Marks)} (h : Sparse.wf (fun _ => noMarks) m = true) :
    Sparse.wf (fun _ => noMarks) (markExecuted a m) = true := Sparse.wf_set (dflt := fun _ => noMarks) h

theorem Watch.check_counts (k : AccessKind) (a : Word) (w : Watch) :
    (w.check k a).read = w.read ∧ (w.check k a).write = w.write := by
  unfold Watch.check
  split <;> exact ⟨rfl, rfl⟩

theorem noteAccess_inv (k : AccessKind) (a : Word) (h : Inv s) : Inv (noteAccess k a s) :=
  { h with
    watchRead := by rw [noteAccess_watch, (Watch.check_counts k a s.watch).1]; exact h.watchRead
    watchWrite := by rw [noteAccess_watch, (Watch.check_counts k a s.watch).2]; exact h.watchWrite
    activity := markAccess_wf k a h.activity }

theorem PortsOnly.inv (hp : PortsOnly s t) (hs : s.cfg.tableAllowed t.slots = true) (h : Inv s) : Inv t := by
  have hc := hp.cfg
  have hcov := hp.coverage
  have hload := hp.load
  obtain ⟨h1, h2, h3, h4, -⟩ := hp
  exact
    { config := by rw [hc]; exact h.config
      slots := by rw [hc]; exact hs
      memory := by rw [hc, h2]; exact h.memory
      watchRead := by rw [h3]; exact h.watchRead
      watchWrite := by rw [h3]; exact h.watchWrite
      activity := by rw [h4]; exact h.activity
      coverage := by rw [hcov]; exact h.coverage
      countdown := by rw [hc, h1]; exact h.countdown
      loadCount := by rw [hc, hload]; exact h.loadCount }

/-- Register writes, bus accesses, port accesses and draws keep the invariant. -/
theorem inv_closed : Closed Inv where
  regs c h _ hcd := { h with countdown := by simpa [hcd] using h.countdown }
  draws _ h := { h with }
  cost _ h := { h with }
  note k x h := noteAccess_inv k x h
  store x v h := { h with memory := poke_wf h.memory false x v }
  input port h := (portRead_ports port _).inv (by rw [(portRead_rest port _).1]; exact h.slots) h
  output port v h := (portWrite_ports port v _).inv (portWrite_tableAllowed port v h.slots) h

/-- The counts of watchpoints stay in canonical form. -/
theorem Watch.update_wf (k : AccessKind) (f : Nat → Nat) (a : Word) {w : Watch}
    (hr : Sparse.wf (fun _ => 0) w.read = true) (hw : Sparse.wf (fun _ => 0) w.write = true) :
    Sparse.wf (fun _ => 0) (w.update k f a).read = true ∧ Sparse.wf (fun _ => 0) (w.update k f a).write = true := by
  cases k
  · exact ⟨Sparse.wf_set (dflt := fun _ => 0) hr, hw⟩
  · exact ⟨hr, Sparse.wf_set (dflt := fun _ => 0) hw⟩

/-- What changing one count does to every count. -/
theorem Watch.count_update (k k' : AccessKind) (f : Nat → Nat) (a b : Word) {w : Watch}
    (hr : Sparse.wf (fun _ => 0) w.read = true) (hw : Sparse.wf (fun _ => 0) w.write = true) :
    (w.update k f a).count k' b = if k' = k ∧ b = a then f (w.count k b) else w.count k' b := by
  have hne : ∀ h : ¬ b = a, b.toNat ≠ a.toNat := fun h e => h (BitVec.eq_of_toNat_eq e)
  cases k <;> cases k' <;> simp only [Watch.update, Watch.count, reduceCtorEq, false_and, if_false, true_and]
  · by_cases h : b = a
    · subst h; simp [Sparse.get_set_same hr]
    · simp [h, Sparse.get_set_ne hr 0 0 (hne h)]
  · by_cases h : b = a
    · subst h; simp [Sparse.get_set_same hw]
    · simp [h, Sparse.get_set_ne hw 0 0 (hne h)]

end Sys2Proof.Machine
end

