-- ==== Sys2Proof/Laws/PerInstr.lean ====
section
/-! SUPPORT. One lemma for each instruction: a well-formed instruction's own bytes decode to it. -/

/-- Decoding the bytes of a well-formed instruction gives the instruction. -/
def Sys2Proof.Laws.RoundTrip.Statement (i : Sys2Proof.Instr) : Prop :=
  i.wf = true → Sys2Proof.decode (Sys2Proof.encode i) = .ok (i, [])

open Sys2Proof Sys2Proof.Laws.RoundTrip

theorem Sys2Proof.Laws.RoundTrip.ldRR (dst : Reg8) (src : Reg8) : Statement (.ldRR dst src) := by
  intro _; cases dst <;> cases src <;> rfl

theorem Sys2Proof.Laws.RoundTrip.ldRN (dst : Reg8) (n : Byte) : Statement (.ldRN dst n) := by
  intro _; cases dst <;> rfl

theorem Sys2Proof.Laws.RoundTrip.ldRAtHL (dst : Reg8) : Statement (.ldRAtHL dst) := by
  intro _; cases dst <;> rfl

theorem Sys2Proof.Laws.RoundTrip.ldRAtIX (dst : Reg8) (disp : Byte) : Statement (.ldRAtIX dst disp) := by
  intro _; cases dst <;> rfl

theorem Sys2Proof.Laws.RoundTrip.ldRAtIY (dst : Reg8) (disp : Byte) : Statement (.ldRAtIY dst disp) := by
  intro _; cases dst <;> rfl

theorem Sys2Proof.Laws.RoundTrip.ldAtHLR (src : Reg8) : Statement (.ldAtHLR src) := by
  intro _; cases src <;> rfl

theorem Sys2Proof.Laws.RoundTrip.ldAtIXR (disp : Byte) (src : Reg8) : Statement (.ldAtIXR disp src) := by
  intro _; cases src <;> rfl

theorem Sys2Proof.Laws.RoundTrip.ldAtIYR (disp : Byte) (src : Reg8) : Statement (.ldAtIYR disp src) := by
  intro _; cases src <;> rfl

theorem Sys2Proof.Laws.RoundTrip.ldAtHLN (n : Byte) : Statement (.ldAtHLN n) := by
  intro _; rfl

theorem Sys2Proof.Laws.RoundTrip.ldAtIXN (disp : Byte) (n : Byte) : Statement (.ldAtIXN disp n) := by
  intro _; rfl

theorem Sys2Proof.Laws.RoundTrip.ldAtIYN (disp : Byte) (n : Byte) : Statement (.ldAtIYN disp n) := by
  intro _; rfl

theorem Sys2Proof.Laws.RoundTrip.ldAAtBC : Statement (.ldAAtBC) := by
  intro _; rfl

theorem Sys2Proof.Laws.RoundTrip.ldAAtDE : Statement (.ldAAtDE) := by
  intro _; rfl

theorem Sys2Proof.Laws.RoundTrip.ldAAtNN (nn : Word) : Statement (.ldAAtNN nn) := by
  intro _; exact congrArg (fun v => Except.ok (Instr.ldAAtNN v, [])) (wordOf_hiByte_loByte nn)

theorem Sys2Proof.Laws.RoundTrip.ldAtBCA : Statement (.ldAtBCA) := by
  intro _; rfl

theorem Sys2Proof.Laws.RoundTrip.ldAtDEA : Statement (.ldAtDEA) := by
  intro _; rfl

theorem Sys2Proof.Laws.RoundTrip.ldAtNNA (nn : Word) : Statement (.ldAtNNA nn) := by
  intro _; exact congrArg (fun v => Except.ok (Instr.ldAtNNA v, [])) (wordOf_hiByte_loByte nn)

theorem Sys2Proof.Laws.RoundTrip.ldAI : Statement (.ldAI) := by
  intro _; rfl

theorem Sys2Proof.Laws.RoundTrip.ldARefresh : Statement (.ldARefresh) := by
  intro _; rfl

theorem Sys2Proof.Laws.RoundTrip.ldIA : Statement (.ldIA) := by
  intro _; rfl

theorem Sys2Proof.Laws.RoundTrip.ldRefreshA : Statement (.ldRefreshA) := by
  intro _; rfl

theorem Sys2Proof.Laws.RoundTrip.ldDDNN (dd : Reg16) (nn : Word) : Statement (.ldDDNN dd nn) := by
  intro _; cases dd <;> exact congrArg (fun v => Except.ok (Instr.ldDDNN _ v, [])) (wordOf_hiByte_loByte nn)

theorem Sys2Proof.Laws.RoundTrip.ldIXNN (nn : Word) : Statement (.ldIXNN nn) := by
  intro _; exact congrArg (fun v => Except.ok (Instr.ldIXNN v, [])) (wordOf_hiByte_loByte nn)

theorem Sys2Proof.Laws.RoundTrip.ldIYNN (nn : Word) : Statement (.ldIYNN nn) := by
  intro _; exact congrArg (fun v => Except.ok (Instr.ldIYNN v, [])) (wordOf_hiByte_loByte nn)

theorem Sys2Proof.Laws.RoundTrip.ldHLAtNN (nn : Word) : Statement (.ldHLAtNN nn) := by
  intro _; exact congrArg (fun v => Except.ok (Instr.ldHLAtNN v, [])) (wordOf_hiByte_loByte nn)

theorem Sys2Proof.Laws.RoundTrip.ldDDAtNN (dd : Reg16) (nn : Word) : Statement (.ldDDAtNN dd nn) := by
  intro _; cases dd <;> exact congrArg (fun v => Except.ok (Instr.ldDDAtNN _ v, [])) (wordOf_hiByte_loByte nn)

theorem Sys2Proof.Laws.RoundTrip.ldIXAtNN (nn : Word) : Statement (.ldIXAtNN nn) := by
  intro _; exact congrArg (fun v => Except.ok (Instr.ldIXAtNN v, [])) (wordOf_hiByte_loByte nn)

theorem Sys2Proof.Laws.RoundTrip.ldIYAtNN (nn : Word) : Statement (.ldIYAtNN nn) := by
  intro _; exact congrArg (fun v => Except.ok (Instr.ldIYAtNN v, [])) (wordOf_hiByte_loByte nn)

theorem Sys2Proof.Laws.RoundTrip.ldAtNNHL (nn : Word) : Statement (.ldAtNNHL nn) := by
  intro _; exact congrArg (fun v => Except.ok (Instr.ldAtNNHL v, [])) (wordOf_hiByte_loByte nn)

theorem Sys2Proof.Laws.RoundTrip.ldAtNNDD (nn : Word) (dd : Reg16) : Statement (.ldAtNNDD nn dd) := by
  intro _; cases dd <;> exact congrArg (fun v => Except.ok (Instr.ldAtNNDD v _, [])) (wordOf_hiByte_loByte nn)

theorem Sys2Proof.Laws.RoundTrip.ldAtNNIX (nn : Word) : Statement (.ldAtNNIX nn) := by
  intro _; exact congrArg (fun v => Except.ok (Instr.ldAtNNIX v, [])) (wordOf_hiByte_loByte nn)

theorem Sys2Proof.Laws.RoundTrip.ldAtNNIY (nn : Word) : Statement (.ldAtNNIY nn) := by
  intro _; exact congrArg (fun v => Except.ok (Instr.ldAtNNIY v, [])) (wordOf_hiByte_loByte nn)

theorem Sys2Proof.Laws.RoundTrip.ldSPHL : Statement (.ldSPHL) := by
  intro _; rfl

theorem Sys2Proof.Laws.RoundTrip.ldSPIX : Statement (.ldSPIX) := by
  intro _; rfl

theorem Sys2Proof.Laws.RoundTrip.ldSPIY : Statement (.ldSPIY) := by
  intro _; rfl

theorem Sys2Proof.Laws.RoundTrip.pushQQ (qq : Reg16AF) : Statement (.pushQQ qq) := by
  intro _; cases qq <;> rfl

theorem Sys2Proof.Laws.RoundTrip.pushIX : Statement (.pushIX) := by
  intro _; rfl

theorem Sys2Proof.Laws.RoundTrip.pushIY : Statement (.pushIY) := by
  intro _; rfl

theorem Sys2Proof.Laws.RoundTrip.popQQ (qq : Reg16AF) : Statement (.popQQ qq) := by
  intro _; cases qq <;> rfl

theorem Sys2Proof.Laws.RoundTrip.popIX : Statement (.popIX) := by
  intro _; rfl

theorem Sys2Proof.Laws.RoundTrip.popIY : Statement (.popIY) := by
  intro _; rfl

theorem Sys2Proof.Laws.RoundTrip.exDEHL : Statement (.exDEHL) := by
  intro _; rfl

theorem Sys2Proof.Laws.RoundTrip.exAFAF : Statement (.exAFAF) := by
  intro _; rfl

theorem Sys2Proof.Laws.RoundTrip.exx : Statement (.exx) := by
  intro _; rfl

theorem Sys2Proof.Laws.RoundTrip.exAtSPHL : Statement (.exAtSPHL) := by
  intro _; rfl

theorem Sys2Proof.Laws.RoundTrip.exAtSPIX : Statement (.exAtSPIX) := by
  intro _; rfl

theorem Sys2Proof.Laws.RoundTrip.exAtSPIY : Statement (.exAtSPIY) := by
  intro _; rfl

theorem Sys2Proof.Laws.RoundTrip.ldi : Statement (.ldi) := by
  intro _; rfl

theorem Sys2Proof.Laws.RoundTrip.ldir : Statement (.ldir) := by
  intro _; rfl

theorem Sys2Proof.Laws.RoundTrip.ldd : Statement (.ldd) := by
  intro _; rfl

theorem Sys2Proof.Laws.RoundTrip.lddr : Statement (.lddr) := by
  intro _; rfl

theorem Sys2Proof.Laws.RoundTrip.cpi : Statement (.cpi) := by
  intro _; rfl

theorem Sys2Proof.Laws.RoundTrip.cpir : Statement (.cpir) := by
  intro _; rfl

theorem Sys2Proof.Laws.RoundTrip.cpd : Statement (.cpd) := by
  intro _; rfl

theorem Sys2Proof.Laws.RoundTrip.cpdr : Statement (.cpdr) := by
  intro _; rfl

theorem Sys2Proof.Laws.RoundTrip.addAR (src : Reg8) : Statement (.addAR src) := by
  intro _; cases src <;> rfl

theorem Sys2Proof.Laws.RoundTrip.addAN (n : Byte) : Statement (.addAN n) := by
  intro _; rfl

theorem Sys2Proof.Laws.RoundTrip.addAAtHL : Statement (.addAAtHL) := by
  intro _; rfl

theorem Sys2Proof.Laws.RoundTrip.addAAtIX (disp : Byte) : Statement (.addAAtIX disp) := by
  intro _; rfl

theorem Sys2Proof.Laws.RoundTrip.addAAtIY (disp : Byte) : Statement (.addAAtIY disp) := by
  intro _; rfl

theorem Sys2Proof.Laws.RoundTrip.adcAR (src : Reg8) : Statement (.adcAR src) := by
  intro _; cases src <;> rfl

theorem Sys2Proof.Laws.RoundTrip.adcAN (n : Byte) : Statement (.adcAN n) := by
  intro _; rfl

theorem Sys2Proof.Laws.RoundTrip.adcAAtHL : Statement (.adcAAtHL) := by
  intro _; rfl

theorem Sys2Proof.Laws.RoundTrip.adcAAtIX (disp : Byte) : Statement (.adcAAtIX disp) := by
  intro _; rfl

theorem Sys2Proof.Laws.RoundTrip.adcAAtIY (disp : Byte) : Statement (.adcAAtIY disp) := by
  intro _; rfl

theorem Sys2Proof.Laws.RoundTrip.subR (src : Reg8) : Statement (.subR src) := by
  intro _; cases src <;> rfl

theorem Sys2Proof.Laws.RoundTrip.subN (n : Byte) : Statement (.subN n) := by
  intro _; rfl

theorem Sys2Proof.Laws.RoundTrip.subAtHL : Statement (.subAtHL) := by
  intro _; rfl

theorem Sys2Proof.Laws.RoundTrip.subAtIX (disp : Byte) : Statement (.subAtIX disp) := by
  intro _; rfl

theorem Sys2Proof.Laws.RoundTrip.subAtIY (disp : Byte) : Statement (.subAtIY disp) := by
  intro _; rfl

theorem Sys2Proof.Laws.RoundTrip.sbcAR (src : Reg8) : Statement (.sbcAR src) := by
  intro _; cases src <;> rfl

theorem Sys2Proof.Laws.RoundTrip.sbcAN (n : Byte) : Statement (.sbcAN n) := by
  intro _; rfl

theorem Sys2Proof.Laws.RoundTrip.sbcAAtHL : Statement (.sbcAAtHL) := by
  intro _; rfl

theorem Sys2Proof.Laws.RoundTrip.sbcAAtIX (disp : Byte) : Statement (.sbcAAtIX disp) := by
  intro _; rfl

theorem Sys2Proof.Laws.RoundTrip.sbcAAtIY (disp : Byte) : Statement (.sbcAAtIY disp) := by
  intro _; rfl

theorem Sys2Proof.Laws.RoundTrip.andR (src : Reg8) : Statement (.andR src) := by
  intro _; cases src <;> rfl

theorem Sys2Proof.Laws.RoundTrip.andN (n : Byte) : Statement (.andN n) := by
  intro _; rfl

theorem Sys2Proof.Laws.RoundTrip.andAtHL : Statement (.andAtHL) := by
  intro _; rfl

theorem Sys2Proof.Laws.RoundTrip.andAtIX (disp : Byte) : Statement (.andAtIX disp) := by
  intro _; rfl

theorem Sys2Proof.Laws.RoundTrip.andAtIY (disp : Byte) : Statement (.andAtIY disp) := by
  intro _; rfl

theorem Sys2Proof.Laws.RoundTrip.orR (src : Reg8) : Statement (.orR src) := by
  intro _; cases src <;> rfl

theorem Sys2Proof.Laws.RoundTrip.orN (n : Byte) : Statement (.orN n) := by
  intro _; rfl

theorem Sys2Proof.Laws.RoundTrip.orAtHL : Statement (.orAtHL) := by
  intro _; rfl

theorem Sys2Proof.Laws.RoundTrip.orAtIX (disp : Byte) : Statement (.orAtIX disp) := by
  intro _; rfl

theorem Sys2Proof.Laws.RoundTrip.orAtIY (disp : Byte) : Statement (.orAtIY disp) := by
  intro _; rfl

theorem Sys2Proof.Laws.RoundTrip.xorR (src : Reg8) : Statement (.xorR src) := by
  intro _; cases src <;> rfl

theorem Sys2Proof.Laws.RoundTrip.xorN (n : Byte) : Statement (.xorN n) := by
  intro _; rfl

theorem Sys2Proof.Laws.RoundTrip.xorAtHL : Statement (.xorAtHL) := by
  intro _; rfl

theorem Sys2Proof.Laws.RoundTrip.xorAtIX (disp : Byte) : Statement (.xorAtIX disp) := by
  intro _; rfl

theorem Sys2Proof.Laws.RoundTrip.xorAtIY (disp : Byte) : Statement (.xorAtIY disp) := by
  intro _; rfl

theorem Sys2Proof.Laws.RoundTrip.cpR (src : Reg8) : Statement (.cpR src) := by
  intro _; cases src <;> rfl

theorem Sys2Proof.Laws.RoundTrip.cpN (n : Byte) : Statement (.cpN n) := by
  intro _; rfl

theorem Sys2Proof.Laws.RoundTrip.cpAtHL : Statement (.cpAtHL) := by
  intro _; rfl

theorem Sys2Proof.Laws.RoundTrip.cpAtIX (disp : Byte) : Statement (.cpAtIX disp) := by
  intro _; rfl

theorem Sys2Proof.Laws.RoundTrip.cpAtIY (disp : Byte) : Statement (.cpAtIY disp) := by
  intro _; rfl

theorem Sys2Proof.Laws.RoundTrip.incR (dst : Reg8) : Statement (.incR dst) := by
  intro _; cases dst <;> rfl

theorem Sys2Proof.Laws.RoundTrip.incAtHL : Statement (.incAtHL) := by
  intro _; rfl

theorem Sys2Proof.Laws.RoundTrip.incAtIX (disp : Byte) : Statement (.incAtIX disp) := by
  intro _; rfl

theorem Sys2Proof.Laws.RoundTrip.incAtIY (disp : Byte) : Statement (.incAtIY disp) := by
  intro _; rfl

theorem Sys2Proof.Laws.RoundTrip.decR (dst : Reg8) : Statement (.decR dst) := by
  intro _; cases dst <;> rfl

theorem Sys2Proof.Laws.RoundTrip.decAtHL : Statement (.decAtHL) := by
  intro _; rfl

theorem Sys2Proof.Laws.RoundTrip.decAtIX (disp : Byte) : Statement (.decAtIX disp) := by
  intro _; rfl

theorem Sys2Proof.Laws.RoundTrip.decAtIY (disp : Byte) : Statement (.decAtIY disp) := by
  intro _; rfl

theorem Sys2Proof.Laws.RoundTrip.daa : Statement (.daa) := by
  intro _; rfl

theorem Sys2Proof.Laws.RoundTrip.cpl : Statement (.cpl) := by
  intro _; rfl

theorem Sys2Proof.Laws.RoundTrip.neg : Statement (.neg) := by
  intro _; rfl

theorem Sys2Proof.Laws.RoundTrip.ccf : Statement (.ccf) := by
  intro _; rfl

theorem Sys2Proof.Laws.RoundTrip.scf : Statement (.scf) := by
  intro _; rfl

theorem Sys2Proof.Laws.RoundTrip.nop : Statement (.nop) := by
  intro _; rfl

theorem Sys2Proof.Laws.RoundTrip.halt : Statement (.halt) := by
  intro _; rfl

theorem Sys2Proof.Laws.RoundTrip.di : Statement (.di) := by
  intro _; rfl

theorem Sys2Proof.Laws.RoundTrip.ei : Statement (.ei) := by
  intro _; rfl

theorem Sys2Proof.Laws.RoundTrip.im0 : Statement (.im0) := by
  intro _; rfl

theorem Sys2Proof.Laws.RoundTrip.im1 : Statement (.im1) := by
  intro _; rfl

theorem Sys2Proof.Laws.RoundTrip.im2 : Statement (.im2) := by
  intro _; rfl

theorem Sys2Proof.Laws.RoundTrip.addHLSS (ss : Reg16) : Statement (.addHLSS ss) := by
  intro _; cases ss <;> rfl

theorem Sys2Proof.Laws.RoundTrip.adcHLSS (ss : Reg16) : Statement (.adcHLSS ss) := by
  intro _; cases ss <;> rfl

theorem Sys2Proof.Laws.RoundTrip.sbcHLSS (ss : Reg16) : Statement (.sbcHLSS ss) := by
  intro _; cases ss <;> rfl

theorem Sys2Proof.Laws.RoundTrip.addIXPP (pp : Reg16IX) : Statement (.addIXPP pp) := by
  intro _; cases pp <;> rfl

theorem Sys2Proof.Laws.RoundTrip.addIYRR (rr : Reg16IY) : Statement (.addIYRR rr) := by
  intro _; cases rr <;> rfl

theorem Sys2Proof.Laws.RoundTrip.incSS (ss : Reg16) : Statement (.incSS ss) := by
  intro _; cases ss <;> rfl

theorem Sys2Proof.Laws.RoundTrip.incIX : Statement (.incIX) := by
  intro _; rfl

theorem Sys2Proof.Laws.RoundTrip.incIY : Statement (.incIY) := by
  intro _; rfl

theorem Sys2Proof.Laws.RoundTrip.decSS (ss : Reg16) : Statement (.decSS ss) := by
  intro _; cases ss <;> rfl

theorem Sys2Proof.Laws.RoundTrip.decIX : Statement (.decIX) := by
  intro _; rfl

theorem Sys2Proof.Laws.RoundTrip.decIY : Statement (.decIY) := by
  intro _; rfl

theorem Sys2Proof.Laws.RoundTrip.rlca : Statement (.rlca) := by
  intro _; rfl

theorem Sys2Proof.Laws.RoundTrip.rla : Statement (.rla) := by
  intro _; rfl

theorem Sys2Proof.Laws.RoundTrip.rrca : Statement (.rrca) := by
  intro _; rfl

theorem Sys2Proof.Laws.RoundTrip.rra : Statement (.rra) := by
  intro _; rfl

theorem Sys2Proof.Laws.RoundTrip.rlcR (dst : Reg8) : Statement (.rlcR dst) := by
  intro _; cases dst <;> rfl

theorem Sys2Proof.Laws.RoundTrip.rlcAtHL : Statement (.rlcAtHL) := by
  intro _; rfl

theorem Sys2Proof.Laws.RoundTrip.rlcAtIX (disp : Byte) : Statement (.rlcAtIX disp) := by
  intro _; rfl

theorem Sys2Proof.Laws.RoundTrip.rlcAtIY (disp : Byte) : Statement (.rlcAtIY disp) := by
  intro _; rfl

theorem Sys2Proof.Laws.RoundTrip.rlR (dst : Reg8) : Statement (.rlR dst) := by
  intro _; cases dst <;> rfl

theorem Sys2Proof.Laws.RoundTrip.rlAtHL : Statement (.rlAtHL) := by
  intro _; rfl

theorem Sys2Proof.Laws.RoundTrip.rlAtIX (disp : Byte) : Statement (.rlAtIX disp) := by
  intro _; rfl

theorem Sys2Proof.Laws.RoundTrip.rlAtIY (disp : Byte) : Statement (.rlAtIY disp) := by
  intro _; rfl

theorem Sys2Proof.Laws.RoundTrip.rrcR (dst : Reg8) : Statement (.rrcR dst) := by
  intro _; cases dst <;> rfl

theorem Sys2Proof.Laws.RoundTrip.rrcAtHL : Statement (.rrcAtHL) := by
  intro _; rfl

theorem Sys2Proof.Laws.RoundTrip.rrcAtIX (disp : Byte) : Statement (.rrcAtIX disp) := by
  intro _; rfl

theorem Sys2Proof.Laws.RoundTrip.rrcAtIY (disp : Byte) : Statement (.rrcAtIY disp) := by
  intro _; rfl

theorem Sys2Proof.Laws.RoundTrip.rrR (dst : Reg8) : Statement (.rrR dst) := by
  intro _; cases dst <;> rfl

theorem Sys2Proof.Laws.RoundTrip.rrAtHL : Statement (.rrAtHL) := by
  intro _; rfl

theorem Sys2Proof.Laws.RoundTrip.rrAtIX (disp : Byte) : Statement (.rrAtIX disp) := by
  intro _; rfl

theorem Sys2Proof.Laws.RoundTrip.rrAtIY (disp : Byte) : Statement (.rrAtIY disp) := by
  intro _; rfl

theorem Sys2Proof.Laws.RoundTrip.slaR (dst : Reg8) : Statement (.slaR dst) := by
  intro _; cases dst <;> rfl

theorem Sys2Proof.Laws.RoundTrip.slaAtHL : Statement (.slaAtHL) := by
  intro _; rfl

theorem Sys2Proof.Laws.RoundTrip.slaAtIX (disp : Byte) : Statement (.slaAtIX disp) := by
  intro _; rfl

theorem Sys2Proof.Laws.RoundTrip.slaAtIY (disp : Byte) : Statement (.slaAtIY disp) := by
  intro _; rfl

theorem Sys2Proof.Laws.RoundTrip.sraR (dst : Reg8) : Statement (.sraR dst) := by
  intro _; cases dst <;> rfl

theorem Sys2Proof.Laws.RoundTrip.sraAtHL : Statement (.sraAtHL) := by
  intro _; rfl

theorem Sys2Proof.Laws.RoundTrip.sraAtIX (disp : Byte) : Statement (.sraAtIX disp) := by
  intro _; rfl

theorem Sys2Proof.Laws.RoundTrip.sraAtIY (disp : Byte) : Statement (.sraAtIY disp) := by
  intro _; rfl

theorem Sys2Proof.Laws.RoundTrip.srlR (dst : Reg8) : Statement (.srlR dst) := by
  intro _; cases dst <;> rfl

theorem Sys2Proof.Laws.RoundTrip.srlAtHL : Statement (.srlAtHL) := by
  intro _; rfl

theorem Sys2Proof.Laws.RoundTrip.srlAtIX (disp : Byte) : Statement (.srlAtIX disp) := by
  intro _; rfl

theorem Sys2Proof.Laws.RoundTrip.srlAtIY (disp : Byte) : Statement (.srlAtIY disp) := by
  intro _; rfl

theorem Sys2Proof.Laws.RoundTrip.rld : Statement (.rld) := by
  intro _; rfl

theorem Sys2Proof.Laws.RoundTrip.rrd : Statement (.rrd) := by
  intro _; rfl

theorem Sys2Proof.Laws.RoundTrip.bitBR (bit : Nat) (src : Reg8) : Statement (.bitBR bit src) := by
  intro h; rcases bitNumberOk_cases h with rfl | rfl | rfl | rfl | rfl | rfl | rfl | rfl <;> cases src <;> rfl

theorem Sys2Proof.Laws.RoundTrip.bitBAtHL (bit : Nat) : Statement (.bitBAtHL bit) := by
  intro h; rcases bitNumberOk_cases h with rfl | rfl | rfl | rfl | rfl | rfl | rfl | rfl <;> rfl

theorem Sys2Proof.Laws.RoundTrip.bitBAtIX (bit : Nat) (disp : Byte) : Statement (.bitBAtIX bit disp) := by
  intro h; rcases bitNumberOk_cases h with rfl | rfl | rfl | rfl | rfl | rfl | rfl | rfl <;> rfl

theorem Sys2Proof.Laws.RoundTrip.bitBAtIY (bit : Nat) (disp : Byte) : Statement (.bitBAtIY bit disp) := by
  intro h; rcases bitNumberOk_cases h with rfl | rfl | rfl | rfl | rfl | rfl | rfl | rfl <;> rfl

theorem Sys2Proof.Laws.RoundTrip.setBR (bit : Nat) (dst : Reg8) : Statement (.setBR bit dst) := by
  intro h; rcases bitNumberOk_cases h with rfl | rfl | rfl | rfl | rfl | rfl | rfl | rfl <;> cases dst <;> rfl

theorem Sys2Proof.Laws.RoundTrip.setBAtHL (bit : Nat) : Statement (.setBAtHL bit) := by
  intro h; rcases bitNumberOk_cases h with rfl | rfl | rfl | rfl | rfl | rfl | rfl | rfl <;> rfl

theorem Sys2Proof.Laws.RoundTrip.setBAtIX (bit : Nat) (disp : Byte) : Statement (.setBAtIX bit disp) := by
  intro h; rcases bitNumberOk_cases h with rfl | rfl | rfl | rfl | rfl | rfl | rfl | rfl <;> rfl

theorem Sys2Proof.Laws.RoundTrip.setBAtIY (bit : Nat) (disp : Byte) : Statement (.setBAtIY bit disp) := by
  intro h; rcases bitNumberOk_cases h with rfl | rfl | rfl | rfl | rfl | rfl | rfl | rfl <;> rfl

theorem Sys2Proof.Laws.RoundTrip.resBR (bit : Nat) (dst : Reg8) : Statement (.resBR bit dst) := by
  intro h; rcases bitNumberOk_cases h with rfl | rfl | rfl | rfl | rfl | rfl | rfl | rfl <;> cases dst <;> rfl

theorem Sys2Proof.Laws.RoundTrip.resBAtHL (bit : Nat) : Statement (.resBAtHL bit) := by
  intro h; rcases bitNumberOk_cases h with rfl | rfl | rfl | rfl | rfl | rfl | rfl | rfl <;> rfl

theorem Sys2Proof.Laws.RoundTrip.resBAtIX (bit : Nat) (disp : Byte) : Statement (.resBAtIX bit disp) := by
  intro h; rcases bitNumberOk_cases h with rfl | rfl | rfl | rfl | rfl | rfl | rfl | rfl <;> rfl

theorem Sys2Proof.Laws.RoundTrip.resBAtIY (bit : Nat) (disp : Byte) : Statement (.resBAtIY bit disp) := by
  intro h; rcases bitNumberOk_cases h with rfl | rfl | rfl | rfl | rfl | rfl | rfl | rfl <;> rfl

theorem Sys2Proof.Laws.RoundTrip.jpNN (nn : Word) : Statement (.jpNN nn) := by
  intro _; exact congrArg (fun v => Except.ok (Instr.jpNN v, [])) (wordOf_hiByte_loByte nn)

theorem Sys2Proof.Laws.RoundTrip.jpCCNN (cc : Cond) (nn : Word) : Statement (.jpCCNN cc nn) := by
  intro _; cases cc <;> exact congrArg (fun v => Except.ok (Instr.jpCCNN _ v, [])) (wordOf_hiByte_loByte nn)

theorem Sys2Proof.Laws.RoundTrip.jr (e : Byte) : Statement (.jr e) := by
  intro _; rfl

theorem Sys2Proof.Laws.RoundTrip.jrC (e : Byte) : Statement (.jrC e) := by
  intro _; rfl

theorem Sys2Proof.Laws.RoundTrip.jrNC (e : Byte) : Statement (.jrNC e) := by
  intro _; rfl

theorem Sys2Proof.Laws.RoundTrip.jrZ (e : Byte) : Statement (.jrZ e) := by
  intro _; rfl

theorem Sys2Proof.Laws.RoundTrip.jrNZ (e : Byte) : Statement (.jrNZ e) := by
  intro _; rfl

theorem Sys2Proof.Laws.RoundTrip.jpHL : Statement (.jpHL) := by
  intro _; rfl

theorem Sys2Proof.Laws.RoundTrip.jpIX : Statement (.jpIX) := by
  intro _; rfl

theorem Sys2Proof.Laws.RoundTrip.jpIY : Statement (.jpIY) := by
  intro _; rfl

theorem Sys2Proof.Laws.RoundTrip.djnz (e : Byte) : Statement (.djnz e) := by
  intro _; rfl

theorem Sys2Proof.Laws.RoundTrip.callNN (nn : Word) : Statement (.callNN nn) := by
  intro _; exact congrArg (fun v => Except.ok (Instr.callNN v, [])) (wordOf_hiByte_loByte nn)

theorem Sys2Proof.Laws.RoundTrip.callCCNN (cc : Cond) (nn : Word) : Statement (.callCCNN cc nn) := by
  intro _; cases cc <;> exact congrArg (fun v => Except.ok (Instr.callCCNN _ v, [])) (wordOf_hiByte_loByte nn)

theorem Sys2Proof.Laws.RoundTrip.ret : Statement (.ret) := by
  intro _; rfl

theorem Sys2Proof.Laws.RoundTrip.retCC (cc : Cond) : Statement (.retCC cc) := by
  intro _; cases cc <;> rfl

theorem Sys2Proof.Laws.RoundTrip.reti : Statement (.reti) := by
  intro _; rfl

theorem Sys2Proof.Laws.RoundTrip.retn : Statement (.retn) := by
  intro _; rfl

theorem Sys2Proof.Laws.RoundTrip.rst (target : Word) : Statement (.rst target) := by
  intro h; rcases restartOk_cases h with rfl | rfl | rfl | rfl | rfl | rfl | rfl | rfl <;> rfl

theorem Sys2Proof.Laws.RoundTrip.inAN (n : Byte) : Statement (.inAN n) := by
  intro _; rfl

theorem Sys2Proof.Laws.RoundTrip.inRC (dst : Reg8) : Statement (.inRC dst) := by
  intro _; cases dst <;> rfl

theorem Sys2Proof.Laws.RoundTrip.ini : Statement (.ini) := by
  intro _; rfl

theorem Sys2Proof.Laws.RoundTrip.inir : Statement (.inir) := by
  intro _; rfl

theorem Sys2Proof.Laws.RoundTrip.ind : Statement (.ind) := by
  intro _; rfl

theorem Sys2Proof.Laws.RoundTrip.indr : Statement (.indr) := by
  intro _; rfl

theorem Sys2Proof.Laws.RoundTrip.outNA (n : Byte) : Statement (.outNA n) := by
  intro _; rfl

theorem Sys2Proof.Laws.RoundTrip.outCR (src : Reg8) : Statement (.outCR src) := by
  intro _; cases src <;> rfl

theorem Sys2Proof.Laws.RoundTrip.outi : Statement (.outi) := by
  intro _; rfl

theorem Sys2Proof.Laws.RoundTrip.otir : Statement (.otir) := by
  intro _; rfl

theorem Sys2Proof.Laws.RoundTrip.outd : Statement (.outd) := by
  intro _; rfl

theorem Sys2Proof.Laws.RoundTrip.otdr : Statement (.otdr) := by
  intro _; rfl
end

