-- ==== Sys2Proof/Tests/Slice0.lean ====
section
/-! SUPPORT. Tests. Expected results come from spec/: the encodings of the instruction rules, the vectors of
95_test_vectors.md, the counts of 30_encoding.md R146, the worked entries of 60_exceptions.md R523. The `witness_`
theorems show states and operands that meet the hypotheses of the statements in Certificates/Slice0/Obligations.lean. -/

namespace Sys2Proof.Tests

set_option Elab.async false

open Sys2Proof Sys2Proof.Machine

/-! ### Helpers -/

/-- The bytes decode, all of them, to the instruction. -/
def decodesTo (bytes : List Byte) (i : Instr) : Bool :=
  match decode bytes with
  | .ok (j, []) => decide (j = i)
  | .ok (_, _ :: _) => false
  | .error _ => false

/-- The bytes are refused as an unknown encoding, and these are the bytes fetched. -/
def unknown (bytes : List Byte) : Bool := decide (decode bytes = .error (.unknownEncoding bytes))

/-- How many rows of a table answer for an opcode byte. -/
def answers {α : Type} (op : Nat) : List (Row α) → Nat
  | [] => 0
  | row :: rest =>
    cond (Nat.beq (Nat.land op row.mask.toNat) row.pattern.toNat)
      (cond (row.make (BitVec.ofNat 8 op)).isSome (answers op rest).succ (answers op rest)) (answers op rest)

/-- The answers of all rows to all opcode bytes below a bound. As many as the spec counts defined bytes: so no two rows
answer for one byte, as far as every defined byte has a row. -/
def total {α : Type} (rows : List (Row α)) : Nat → Nat
  | 0 => 0
  | op + 1 => total rows op + answers op rows

/-- The machine of the vectors: one RAM bank, every register zero. -/
def base (cfg : Config) : State := State.resetWith cfg Launch.zero

/-- Port writes are recorded. -/
def recorder : Config := { Config.standard with writeGeneric := [.record] }

/-- One port answers a byte. -/
def answering (port : Word) (v : Byte) : Config := { Config.standard with readSpecific := [(port, .constant v)] }

/-- ROM below 0x4000. -/
def withRom : Config :=
  { Config.standard with
    slots := [⟨0, 0x4000⟩, ⟨0x4000, 0xC000⟩]
    banks := [⟨0x4000, .rom, 0x00#8, [0], none⟩, ⟨0xC000, .ram, 0x00#8, [1], none⟩]
    initSlot := [0, 1] }

/-- The bytes at `at`, and `PC` there. -/
def placed (at_ : Word) (bytes : List Byte) (s : State) : State := writeBlock true at_ bytes (setPC at_ s)

/-- The two flip-flops. -/
def withIff (iff1 iff2 : Bool) (s : State) : State := { s with cpu := { s.cpu with iff1 := iff1, iff2 := iff2 } }

/-- The flags that are set, by name. -/
def withFlags (f : Flags) (s : State) : State := { s with cpu := { s.cpu with f := f } }

/-- The state a step answers. -/
def stepped (s : State) : Option State :=
  match step s with
  | .next t => some t
  | .fault _ => none
  | .refused _ => none

/-- A step ends in a state with the property. -/
def ends (s : State) (p : State → Bool) : Bool := (stepped s).any p

/-- The outcome is a next state. -/
def isNext (r : Result) : Bool :=
  match r with
  | .next _ => true
  | .fault _ => false
  | .refused _ => false

/-! ### Well-formedness: one ill-formed term for each check -/

theorem test_wf_bit_number : (Instr.bitBR 8 .a).wf = false ∧ (Instr.setBAtHL 8).wf = false ∧
    (Instr.resBAtIX 9 0x00#8).wf = false ∧ (Instr.bitBR 7 .a).wf = true := by decide

theorem test_wf_restart_target : (Instr.rst 0x0009#16).wf = false ∧ (Instr.rst 0x0040#16).wf = false ∧
    (Instr.rst 0x0138#16).wf = false ∧ (Instr.rst 0x0038#16).wf = true := by decide

/-! ### Decoding: one word for every constructor, written out from the `encoding` of its rule -/

theorem test_decode_load8_1 :
    ([
      ([0b01010011#8], .ldRR .d .e),
      ([0b00010110#8, 0b01011010#8], .ldRN .d 0x5A#8),
      ([0b01010110#8], .ldRAtHL .d),
      ([0b11011101#8, 0b01010110#8, 0b10000101#8], .ldRAtIX .d 0x85#8),
      ([0b11111101#8, 0b01010110#8, 0b10000101#8], .ldRAtIY .d 0x85#8),
      ([0b01110011#8], .ldAtHLR .e),
      ([0b11011101#8, 0b01110011#8, 0b10000101#8], .ldAtIXR 0x85#8 .e),
      ([0b11111101#8, 0b01110011#8, 0b10000101#8], .ldAtIYR 0x85#8 .e),
      ([0b00110110#8, 0b01011010#8], .ldAtHLN 0x5A#8),
      ([0b11011101#8, 0b00110110#8, 0b10000101#8, 0b01011010#8], .ldAtIXN 0x85#8 0x5A#8),
      ([0b11111101#8, 0b00110110#8, 0b10000101#8, 0b01011010#8], .ldAtIYN 0x85#8 0x5A#8),
      ([0b00001010#8], .ldAAtBC),
      ([0b00011010#8], .ldAAtDE),
      ([0b00111010#8, 0b00110100#8, 0b00010010#8], .ldAAtNN 0x1234#16) ] : List (List Byte × Instr)).all
      (fun row => decodesTo row.1 row.2) = true := by decide +kernel

theorem test_decode_load8_2 :
    ([
      ([0b00000010#8], .ldAtBCA),
      ([0b00010010#8], .ldAtDEA),
      ([0b00110010#8, 0b00110100#8, 0b00010010#8], .ldAtNNA 0x1234#16),
      ([0b11101101#8, 0b01010111#8], .ldAI),
      ([0b11101101#8, 0b01011111#8], .ldARefresh),
      ([0b11101101#8, 0b01000111#8], .ldIA),
      ([0b11101101#8, 0b01001111#8], .ldRefreshA) ] : List (List Byte × Instr)).all
      (fun row => decodesTo row.1 row.2) = true := by decide +kernel

theorem test_decode_load16_1 :
    ([
      ([0b00110001#8, 0b00110100#8, 0b00010010#8], .ldDDNN .sp 0x1234#16),
      ([0b11011101#8, 0b00100001#8, 0b00110100#8, 0b00010010#8], .ldIXNN 0x1234#16),
      ([0b11111101#8, 0b00100001#8, 0b00110100#8, 0b00010010#8], .ldIYNN 0x1234#16),
      ([0b00101010#8, 0b00110100#8, 0b00010010#8], .ldHLAtNN 0x1234#16),
      ([0b11101101#8, 0b01111011#8, 0b00110100#8, 0b00010010#8], .ldDDAtNN .sp 0x1234#16),
      ([0b11011101#8, 0b00101010#8, 0b00110100#8, 0b00010010#8], .ldIXAtNN 0x1234#16),
      ([0b11111101#8, 0b00101010#8, 0b00110100#8, 0b00010010#8], .ldIYAtNN 0x1234#16),
      ([0b00100010#8, 0b00110100#8, 0b00010010#8], .ldAtNNHL 0x1234#16),
      ([0b11101101#8, 0b01110011#8, 0b00110100#8, 0b00010010#8], .ldAtNNDD 0x1234#16 .sp),
      ([0b11011101#8, 0b00100010#8, 0b00110100#8, 0b00010010#8], .ldAtNNIX 0x1234#16),
      ([0b11111101#8, 0b00100010#8, 0b00110100#8, 0b00010010#8], .ldAtNNIY 0x1234#16),
      ([0b11111001#8], .ldSPHL),
      ([0b11011101#8, 0b11111001#8], .ldSPIX),
      ([0b11111101#8, 0b11111001#8], .ldSPIY) ] : List (List Byte × Instr)).all
      (fun row => decodesTo row.1 row.2) = true := by decide +kernel

theorem test_decode_load16_2 :
    ([
      ([0b11110101#8], .pushQQ .af),
      ([0b11011101#8, 0b11100101#8], .pushIX),
      ([0b11111101#8, 0b11100101#8], .pushIY),
      ([0b11110001#8], .popQQ .af),
      ([0b11011101#8, 0b11100001#8], .popIX),
      ([0b11111101#8, 0b11100001#8], .popIY) ] : List (List Byte × Instr)).all
      (fun row => decodesTo row.1 row.2) = true := by decide +kernel

theorem test_decode_exchangeBlock_1 :
    ([
      ([0b11101011#8], .exDEHL),
      ([0b00001000#8], .exAFAF),
      ([0b11011001#8], .exx),
      ([0b11100011#8], .exAtSPHL),
      ([0b11011101#8, 0b11100011#8], .exAtSPIX),
      ([0b11111101#8, 0b11100011#8], .exAtSPIY),
      ([0b11101101#8, 0b10100000#8], .ldi),
      ([0b11101101#8, 0b10110000#8], .ldir),
      ([0b11101101#8, 0b10101000#8], .ldd),
      ([0b11101101#8, 0b10111000#8], .lddr),
      ([0b11101101#8, 0b10100001#8], .cpi),
      ([0b11101101#8, 0b10110001#8], .cpir),
      ([0b11101101#8, 0b10101001#8], .cpd),
      ([0b11101101#8, 0b10111001#8], .cpdr) ] : List (List Byte × Instr)).all
      (fun row => decodesTo row.1 row.2) = true := by decide +kernel

theorem test_decode_arith8_1 :
    ([
      ([0b10000010#8], .addAR .d),
      ([0b11000110#8, 0b01011010#8], .addAN 0x5A#8),
      ([0b10000110#8], .addAAtHL),
      ([0b11011101#8, 0b10000110#8, 0b10000101#8], .addAAtIX 0x85#8),
      ([0b11111101#8, 0b10000110#8, 0b10000101#8], .addAAtIY 0x85#8),
      ([0b10001010#8], .adcAR .d),
      ([0b11001110#8, 0b01011010#8], .adcAN 0x5A#8),
      ([0b10001110#8], .adcAAtHL),
      ([0b11011101#8, 0b10001110#8, 0b10000101#8], .adcAAtIX 0x85#8),
      ([0b11111101#8, 0b10001110#8, 0b10000101#8], .adcAAtIY 0x85#8),
      ([0b10010010#8], .subR .d),
      ([0b11010110#8, 0b01011010#8], .subN 0x5A#8),
      ([0b10010110#8], .subAtHL),
      ([0b11011101#8, 0b10010110#8, 0b10000101#8], .subAtIX 0x85#8) ] : List (List Byte × Instr)).all
      (fun row => decodesTo row.1 row.2) = true := by decide +kernel

theorem test_decode_arith8_2 :
    ([
      ([0b11111101#8, 0b10010110#8, 0b10000101#8], .subAtIY 0x85#8),
      ([0b10011010#8], .sbcAR .d),
      ([0b11011110#8, 0b01011010#8], .sbcAN 0x5A#8),
      ([0b10011110#8], .sbcAAtHL),
      ([0b11011101#8, 0b10011110#8, 0b10000101#8], .sbcAAtIX 0x85#8),
      ([0b11111101#8, 0b10011110#8, 0b10000101#8], .sbcAAtIY 0x85#8),
      ([0b10100010#8], .andR .d),
      ([0b11100110#8, 0b01011010#8], .andN 0x5A#8),
      ([0b10100110#8], .andAtHL),
      ([0b11011101#8, 0b10100110#8, 0b10000101#8], .andAtIX 0x85#8),
      ([0b11111101#8, 0b10100110#8, 0b10000101#8], .andAtIY 0x85#8),
      ([0b10110010#8], .orR .d),
      ([0b11110110#8, 0b01011010#8], .orN 0x5A#8),
      ([0b10110110#8], .orAtHL) ] : List (List Byte × Instr)).all
      (fun row => decodesTo row.1 row.2) = true := by decide +kernel

theorem test_decode_arith8_3 :
    ([
      ([0b11011101#8, 0b10110110#8, 0b10000101#8], .orAtIX 0x85#8),
      ([0b11111101#8, 0b10110110#8, 0b10000101#8], .orAtIY 0x85#8),
      ([0b10101010#8], .xorR .d),
      ([0b11101110#8, 0b01011010#8], .xorN 0x5A#8),
      ([0b10101110#8], .xorAtHL),
      ([0b11011101#8, 0b10101110#8, 0b10000101#8], .xorAtIX 0x85#8),
      ([0b11111101#8, 0b10101110#8, 0b10000101#8], .xorAtIY 0x85#8),
      ([0b10111010#8], .cpR .d),
      ([0b11111110#8, 0b01011010#8], .cpN 0x5A#8),
      ([0b10111110#8], .cpAtHL),
      ([0b11011101#8, 0b10111110#8, 0b10000101#8], .cpAtIX 0x85#8),
      ([0b11111101#8, 0b10111110#8, 0b10000101#8], .cpAtIY 0x85#8),
      ([0b00010100#8], .incR .d),
      ([0b00110100#8], .incAtHL) ] : List (List Byte × Instr)).all
      (fun row => decodesTo row.1 row.2) = true := by decide +kernel

theorem test_decode_arith8_4 :
    ([
      ([0b11011101#8, 0b00110100#8, 0b10000101#8], .incAtIX 0x85#8),
      ([0b11111101#8, 0b00110100#8, 0b10000101#8], .incAtIY 0x85#8),
      ([0b00010101#8], .decR .d),
      ([0b00110101#8], .decAtHL),
      ([0b11011101#8, 0b00110101#8, 0b10000101#8], .decAtIX 0x85#8),
      ([0b11111101#8, 0b00110101#8, 0b10000101#8], .decAtIY 0x85#8) ] : List (List Byte × Instr)).all
      (fun row => decodesTo row.1 row.2) = true := by decide +kernel

theorem test_decode_generalCpu_1 :
    ([
      ([0b00100111#8], .daa),
      ([0b00101111#8], .cpl),
      ([0b11101101#8, 0b01000100#8], .neg),
      ([0b00111111#8], .ccf),
      ([0b00110111#8], .scf),
      ([0b00000000#8], .nop),
      ([0b01110110#8], .halt),
      ([0b11110011#8], .di),
      ([0b11111011#8], .ei),
      ([0b11101101#8, 0b01000110#8], .im0),
      ([0b11101101#8, 0b01010110#8], .im1),
      ([0b11101101#8, 0b01011110#8], .im2) ] : List (List Byte × Instr)).all
      (fun row => decodesTo row.1 row.2) = true := by decide +kernel

theorem test_decode_arith16_1 :
    ([
      ([0b00111001#8], .addHLSS .sp),
      ([0b11101101#8, 0b01111010#8], .adcHLSS .sp),
      ([0b11101101#8, 0b01110010#8], .sbcHLSS .sp),
      ([0b11011101#8, 0b00101001#8], .addIXPP .ix),
      ([0b11111101#8, 0b00101001#8], .addIYRR .iy),
      ([0b00110011#8], .incSS .sp),
      ([0b11011101#8, 0b00100011#8], .incIX),
      ([0b11111101#8, 0b00100011#8], .incIY),
      ([0b00111011#8], .decSS .sp),
      ([0b11011101#8, 0b00101011#8], .decIX),
      ([0b11111101#8, 0b00101011#8], .decIY) ] : List (List Byte × Instr)).all
      (fun row => decodesTo row.1 row.2) = true := by decide +kernel

theorem test_decode_rotateShift_1 :
    ([
      ([0b00000111#8], .rlca),
      ([0b00010111#8], .rla),
      ([0b00001111#8], .rrca),
      ([0b00011111#8], .rra),
      ([0b11001011#8, 0b00000010#8], .rlcR .d),
      ([0b11001011#8, 0b00000110#8], .rlcAtHL),
      ([0b11011101#8, 0b11001011#8, 0b10000101#8, 0b00000110#8], .rlcAtIX 0x85#8),
      ([0b11111101#8, 0b11001011#8, 0b10000101#8, 0b00000110#8], .rlcAtIY 0x85#8),
      ([0b11001011#8, 0b00010010#8], .rlR .d),
      ([0b11001011#8, 0b00010110#8], .rlAtHL),
      ([0b11011101#8, 0b11001011#8, 0b10000101#8, 0b00010110#8], .rlAtIX 0x85#8),
      ([0b11111101#8, 0b11001011#8, 0b10000101#8, 0b00010110#8], .rlAtIY 0x85#8),
      ([0b11001011#8, 0b00001010#8], .rrcR .d),
      ([0b11001011#8, 0b00001110#8], .rrcAtHL) ] : List (List Byte × Instr)).all
      (fun row => decodesTo row.1 row.2) = true := by decide +kernel

theorem test_decode_rotateShift_2 :
    ([
      ([0b11011101#8, 0b11001011#8, 0b10000101#8, 0b00001110#8], .rrcAtIX 0x85#8),
      ([0b11111101#8, 0b11001011#8, 0b10000101#8, 0b00001110#8], .rrcAtIY 0x85#8),
      ([0b11001011#8, 0b00011010#8], .rrR .d),
      ([0b11001011#8, 0b00011110#8], .rrAtHL),
      ([0b11011101#8, 0b11001011#8, 0b10000101#8, 0b00011110#8], .rrAtIX 0x85#8),
      ([0b11111101#8, 0b11001011#8, 0b10000101#8, 0b00011110#8], .rrAtIY 0x85#8),
      ([0b11001011#8, 0b00100010#8], .slaR .d),
      ([0b11001011#8, 0b00100110#8], .slaAtHL),
      ([0b11011101#8, 0b11001011#8, 0b10000101#8, 0b00100110#8], .slaAtIX 0x85#8),
      ([0b11111101#8, 0b11001011#8, 0b10000101#8, 0b00100110#8], .slaAtIY 0x85#8),
      ([0b11001011#8, 0b00101010#8], .sraR .d),
      ([0b11001011#8, 0b00101110#8], .sraAtHL),
      ([0b11011101#8, 0b11001011#8, 0b10000101#8, 0b00101110#8], .sraAtIX 0x85#8),
      ([0b11111101#8, 0b11001011#8, 0b10000101#8, 0b00101110#8], .sraAtIY 0x85#8) ] : List (List Byte × Instr)).all
      (fun row => decodesTo row.1 row.2) = true := by decide +kernel

theorem test_decode_rotateShift_3 :
    ([
      ([0b11001011#8, 0b00111010#8], .srlR .d),
      ([0b11001011#8, 0b00111110#8], .srlAtHL),
      ([0b11011101#8, 0b11001011#8, 0b10000101#8, 0b00111110#8], .srlAtIX 0x85#8),
      ([0b11111101#8, 0b11001011#8, 0b10000101#8, 0b00111110#8], .srlAtIY 0x85#8),
      ([0b11101101#8, 0b01101111#8], .rld),
      ([0b11101101#8, 0b01100111#8], .rrd) ] : List (List Byte × Instr)).all
      (fun row => decodesTo row.1 row.2) = true := by decide +kernel

theorem test_decode_bit_1 :
    ([
      ([0b11001011#8, 0b01110010#8], .bitBR 6 .d),
      ([0b11001011#8, 0b01110110#8], .bitBAtHL 6),
      ([0b11011101#8, 0b11001011#8, 0b10000101#8, 0b01110110#8], .bitBAtIX 6 0x85#8),
      ([0b11111101#8, 0b11001011#8, 0b10000101#8, 0b01110110#8], .bitBAtIY 6 0x85#8),
      ([0b11001011#8, 0b11110010#8], .setBR 6 .d),
      ([0b11001011#8, 0b11110110#8], .setBAtHL 6),
      ([0b11011101#8, 0b11001011#8, 0b10000101#8, 0b11110110#8], .setBAtIX 6 0x85#8),
      ([0b11111101#8, 0b11001011#8, 0b10000101#8, 0b11110110#8], .setBAtIY 6 0x85#8),
      ([0b11001011#8, 0b10110010#8], .resBR 6 .d),
      ([0b11001011#8, 0b10110110#8], .resBAtHL 6),
      ([0b11011101#8, 0b11001011#8, 0b10000101#8, 0b10110110#8], .resBAtIX 6 0x85#8),
      ([0b11111101#8, 0b11001011#8, 0b10000101#8, 0b10110110#8], .resBAtIY 6 0x85#8) ] : List (List Byte × Instr)).all
      (fun row => decodesTo row.1 row.2) = true := by decide +kernel

theorem test_decode_jumpCall_1 :
    ([
      ([0b11000011#8, 0b00110100#8, 0b00010010#8], .jpNN 0x1234#16),
      ([0b11101010#8, 0b00110100#8, 0b00010010#8], .jpCCNN .pe 0x1234#16),
      ([0b00011000#8, 0b11110000#8], .jr 0xF0#8),
      ([0b00111000#8, 0b11110000#8], .jrC 0xF0#8),
      ([0b00110000#8, 0b11110000#8], .jrNC 0xF0#8),
      ([0b00101000#8, 0b11110000#8], .jrZ 0xF0#8),
      ([0b00100000#8, 0b11110000#8], .jrNZ 0xF0#8),
      ([0b11101001#8], .jpHL),
      ([0b11011101#8, 0b11101001#8], .jpIX),
      ([0b11111101#8, 0b11101001#8], .jpIY),
      ([0b00010000#8, 0b11110000#8], .djnz 0xF0#8),
      ([0b11001101#8, 0b00110100#8, 0b00010010#8], .callNN 0x1234#16),
      ([0b11101100#8, 0b00110100#8, 0b00010010#8], .callCCNN .pe 0x1234#16),
      ([0b11001001#8], .ret) ] : List (List Byte × Instr)).all
      (fun row => decodesTo row.1 row.2) = true := by decide +kernel

theorem test_decode_jumpCall_2 :
    ([
      ([0b11101000#8], .retCC .pe),
      ([0b11101101#8, 0b01001101#8], .reti),
      ([0b11101101#8, 0b01000101#8], .retn),
      ([0b11101111#8], .rst 0x0028#16) ] : List (List Byte × Instr)).all
      (fun row => decodesTo row.1 row.2) = true := by decide +kernel

theorem test_decode_io_1 :
    ([
      ([0b11011011#8, 0b01011010#8], .inAN 0x5A#8),
      ([0b11101101#8, 0b01010000#8], .inRC .d),
      ([0b11101101#8, 0b10100010#8], .ini),
      ([0b11101101#8, 0b10110010#8], .inir),
      ([0b11101101#8, 0b10101010#8], .ind),
      ([0b11101101#8, 0b10111010#8], .indr),
      ([0b11010011#8, 0b01011010#8], .outNA 0x5A#8),
      ([0b11101101#8, 0b01010001#8], .outCR .d),
      ([0b11101101#8, 0b10100011#8], .outi),
      ([0b11101101#8, 0b10110011#8], .otir),
      ([0b11101101#8, 0b10101011#8], .outd),
      ([0b11101101#8, 0b10111011#8], .otdr) ] : List (List Byte × Instr)).all
      (fun row => decodesTo row.1 row.2) = true := by decide +kernel

theorem test_decode_operand_codes :
    ([ ([0x78#8], .ldRR .a .b), ([0x61#8], .ldRR .h .c), ([0x6C#8], .ldRR .l .h), ([0xC5#8], .pushQQ .bc),
      ([0xD5#8], .pushQQ .de), ([0xE5#8], .pushQQ .hl), ([0x09#8], .addHLSS .bc), ([0x19#8], .addHLSS .de),
      ([0x29#8], .addHLSS .hl), ([0xC8#8], .retCC .z), ([0xD0#8], .retCC .nc), ([0xE0#8], .retCC .po),
      ([0xF0#8], .retCC .p), ([0xF8#8], .retCC .m), ([0xDD#8, 0x39#8], .addIXPP .sp) ] :
      List (List Byte × Instr)).all (fun row => decodesTo row.1 row.2) = true := by decide +kernel

/-- 30_encoding.md R146: 252, 248, 58, 39, 39, 31 and 31 defined opcode bytes (the lead bytes left out). -/
theorem test_table_counts : total mainRows 256 = 252 ∧ total cbRows 256 = 248 ∧ total edRows 256 = 58 ∧
    total ddRows 256 = 39 ∧ total fdRows 256 = 39 ∧ total ddcbRows 256 = 31 ∧ total fdcbRows 256 = 31 := by
  decide +kernel

/-- 95_test_vectors.md section 3. -/
theorem test_unknown_encodings :
    [[0xCB#8, 0x30#8], [0xCB#8, 0x37#8], [0xED#8, 0x00#8], [0xED#8, 0x4C#8], [0xED#8, 0x4E#8], [0xED#8, 0x54#8],
      [0xDD#8, 0x00#8], [0xDD#8, 0x44#8], [0xDD#8, 0xDD#8], [0xFD#8, 0xFD#8],
      [0xDD#8, 0xCB#8, 0x01#8, 0x00#8], [0xFD#8, 0xCB#8, 0x02#8, 0x36#8]].all unknown = true := by decide +kernel

theorem test_table_word : decodeTableWord 16 0xEDB0 = some .ldir ∧ decodeTableWord 8 0x41 = some (.ldRR .b .c) ∧
    decodeTableWord 32 0xDDCB0506 = some (.rlcAtIX 0x05#8) ∧ decodeTableWord 24 0xC33412 = some (.jpNN 0x1234#16) ∧
    decodeTableWord 16 0xED00 = none := by decide +kernel

theorem test_encode_bytes : encode (.jpNN 0x1234#16) = [0xC3#8, 0x34#8, 0x12#8] ∧
    encode (.setBAtIY 2 0x80#8) = [0xFD#8, 0xCB#8, 0x80#8, 0xD6#8] ∧ encode (.rst 0x0038#16) = [0xFF#8] := by decide

/-! ### Instruction vectors (95_test_vectors.md section 2): the items named in a row of it, and the T-states -/

/-- LD A,(HL) (R202), row 4 of 40_load8. -/
theorem test_LD_A_HL :
    ends (base Config.standard |> hostSet16 .hl 0xFFFF#16 |> poke true 0xFFFF#16 0x9C#8
        |> placed 0x8000#16 [0x7E#8]) (fun t =>
      hostGet8 t .a == 0x9C#8 && t.cpu.pc == 0x8001#16 && t.tTotal == 7) = true := by decide +kernel

/-- LD A,(IX-1) (R203), row 5 of 40_load8. -/
theorem test_LD_A_IX_1 :
    ends (base Config.standard |> hostSet16 .ix 0x0000#16 |> poke true 0xFFFF#16 0x77#8
        |> placed 0x8000#16 [0xDD#8, 0x7E#8, 0xFF#8]) (fun t =>
      hostGet8 t .a == 0x77#8 && t.cpu.pc == 0x8003#16 && t.tTotal == 19) = true := by decide +kernel

/-- LD B,(IY+127) (R204), row 6 of 40_load8. -/
theorem test_LD_B_IY_127 :
    ends (base Config.standard |> hostSet16 .iy 0xFFF0#16 |> poke true 0x006F#16 0x31#8
        |> placed 0x8000#16 [0xFD#8, 0x46#8, 0x7F#8]) (fun t =>
      hostGet8 t .b == 0x31#8 && t.cpu.pc == 0x8003#16 && t.tTotal == 19) = true := by decide +kernel

/-- LD (HL),0x55 (R208), row 8 of 40_load8. -/
theorem test_LD_HL_0x55 :
    ends (base withRom |> hostSet16 .hl 0x0100#16 |> placed 0x8000#16 [0x36#8, 0x55#8]) (fun t =>
      peek t 0x0100#16 == 0x00#8 && t.cpu.pc == 0x8002#16 && t.tTotal == 10) = true := by decide +kernel

/-- LD (IX-128),0x99 (R209), row 9 of 40_load8. -/
theorem test_LD_IX_128_0x99 :
    ends (base Config.standard |> hostSet16 .ix 0x9080#16 |> placed 0x8000#16 [0xDD#8, 0x36#8, 0x80#8,
        0x99#8]) (fun t =>
      peek t 0x9000#16 == 0x99#8 && t.cpu.pc == 0x8004#16 && t.tTotal == 19) = true := by decide +kernel

/-- LD A,I (R217), row 15 of 40_load8. -/
theorem test_LD_A_I :
    ends (base Config.standard |> hostSet8 .i 0x00#8 |> withFlags { Flags.zero with c := true }
        |> withIff false true |> placed 0x8000#16 [0xED#8, 0x57#8]) (fun t =>
      hostGet8 t .a == 0x00#8 && t.cpu.pc == 0x8002#16 && t.cpu.f.s == false && t.cpu.f.z == true &&
        t.cpu.f.h == false && t.cpu.f.pv == true && t.cpu.f.n == false && t.cpu.f.c == true &&
        t.tTotal == 9) = true := by decide +kernel

/-- LD A,R (R218), row 17 of 40_load8. -/
theorem test_LD_A_R :
    ends (base Config.standard |> hostSet8 .r 0xFE#8 |> withIff false true |> placed 0x8000#16 [0xED#8,
        0x5F#8]) (fun t =>
      hostGet8 t .a == 0x80#8 && t.cpu.pc == 0x8002#16 && t.cpu.f.s == true && t.cpu.f.z == false &&
        t.cpu.f.h == false && t.cpu.f.pv == true && t.cpu.f.n == false && t.cpu.f.c == false &&
        t.tTotal == 9) = true := by decide +kernel

/-- LD R,A (R220), row 19 of 40_load8. -/
theorem test_LD_R_A :
    ends (base Config.standard |> hostSet8 .a 0x85#8 |> hostSet8 .r 0x10#8 |> placed 0x8000#16 [0xED#8,
        0x4F#8]) (fun t =>
      hostGet8 t .r == 0x85#8 && t.cpu.pc == 0x8002#16 && t.tTotal == 9) = true := by decide +kernel

/-- LD HL,(0xFFFF) (R233), row 3 of 41_load16. -/
theorem test_LD_HL_0xFFFF :
    ends (base Config.standard |> poke true 0xFFFF#16 0x34#8 |> poke true 0x0000#16 0x12#8
        |> placed 0x8000#16 [0x2A#8, 0xFF#8, 0xFF#8]) (fun t =>
      hostGet8 t .h == 0x12#8 && hostGet8 t .l == 0x34#8 && t.cpu.pc == 0x8003#16 &&
        t.tTotal == 16) = true := by decide +kernel

/-- LD (0x9010),SP (R238), row 7 of 41_load16. -/
theorem test_LD_0x9010_SP :
    ends (base Config.standard |> hostSet16 .sp 0x1234#16 |> placed 0x8000#16 [0xED#8, 0x73#8, 0x10#8,
        0x90#8]) (fun t =>
      peek t 0x9010#16 == 0x34#8 && peek t 0x9011#16 == 0x12#8 && t.cpu.pc == 0x8004#16 &&
        t.tTotal == 20) = true := by decide +kernel

/-- PUSH AF (R244), row 11 of 41_load16. -/
theorem test_PUSH_AF :
    ends (base Config.standard |> hostSet16 .af 0x12D7#16 |> hostSet16 .sp 0x0001#16
        |> placed 0x8000#16 [0xF5#8]) (fun t =>
      hostGet16 t .sp == 0xFFFF#16 && peek t 0x0000#16 == 0x12#8 && peek t 0xFFFF#16 == 0xD7#8 &&
        t.cpu.pc == 0x8001#16 && t.tTotal == 11) = true := by decide +kernel

/-- PUSH BC (R244), row 12 of 41_load16. -/
theorem test_PUSH_BC :
    ends (base withRom |> hostSet16 .bc 0xAABB#16 |> hostSet16 .sp 0x0102#16 |> placed 0x8000#16 [0xC5#8]) (fun t =>
      peek t 0x0101#16 == 0x00#8 && peek t 0x0100#16 == 0x00#8 && hostGet16 t .sp == 0x0100#16 &&
        t.cpu.pc == 0x8001#16 && t.tTotal == 11) = true := by decide +kernel

/-- POP AF (R247), row 13 of 41_load16. -/
theorem test_POP_AF :
    ends (base Config.standard |> hostSet16 .sp 0xFFFF#16 |> poke true 0xFFFF#16 0xD7#8
        |> poke true 0x0000#16 0x9A#8 |> placed 0x8000#16 [0xF1#8]) (fun t =>
      hostGet8 t .a == 0x9A#8 && hostGet16 t .sp == 0x0001#16 && hostGet8 t .f == 0xD7#8 &&
        t.cpu.pc == 0x8001#16 && t.tTotal == 10) = true := by decide +kernel

/-- EX AF,AF' (R261), row 2 of 42_exchange_block. -/
theorem test_EX_AF_AF :
    ends (base Config.standard |> hostSet16 .af 0x12D7#16 |> hostSet16 .altAF 0x3400#16
        |> placed 0x8000#16 [0x08#8]) (fun t =>
      hostGet16 t .af == 0x3400#16 && hostGet16 t .altAF == 0x12D7#16 && t.cpu.pc == 0x8001#16 &&
        t.tTotal == 4) = true := by decide +kernel

/-- EXX (R262), row 3 of 42_exchange_block. -/
theorem test_EXX :
    ends (base Config.standard |> hostSet16 .bc 0x0001#16 |> hostSet16 .de 0x0002#16 |> hostSet16 .hl 0x0003#16
        |> hostSet16 .altBC 0x1001#16 |> hostSet16 .altDE 0x1002#16 |> hostSet16 .altHL 0x1003#16
        |> placed 0x8000#16 [0xD9#8]) (fun t =>
      hostGet16 t .bc == 0x1001#16 && hostGet16 t .de == 0x1002#16 && hostGet16 t .hl == 0x1003#16 &&
        hostGet16 t .altBC == 0x0001#16 && hostGet16 t .altDE == 0x0002#16 && hostGet16 t .altHL == 0x0003#16 &&
        t.cpu.pc == 0x8001#16 && t.tTotal == 4) = true := by decide +kernel

/-- EX (SP),HL (R263), row 4 of 42_exchange_block. -/
theorem test_EX_SP_HL :
    ends (base Config.standard |> hostSet16 .sp 0x9000#16 |> hostSet16 .hl 0x7012#16
        |> poke true 0x9000#16 0x11#8 |> poke true 0x9001#16 0x22#8 |> placed 0x8000#16 [0xE3#8]) (fun t =>
      hostGet16 t .hl == 0x2211#16 && peek t 0x9000#16 == 0x12#8 && peek t 0x9001#16 == 0x70#8 &&
        t.cpu.pc == 0x8001#16 && t.tTotal == 19) = true := by decide +kernel

/-- LDI (R266), row 7 of 42_exchange_block. -/
theorem test_LDI :
    ends (base Config.standard |> hostSet16 .hl 0x9000#16 |> hostSet16 .de 0xFFFF#16 |> hostSet16 .bc 0x0000#16
        |> poke true 0x9000#16 0x42#8 |> placed 0x8000#16 [0xED#8, 0xA0#8]) (fun t =>
      hostGet16 t .bc == 0xFFFF#16 && hostGet16 t .de == 0x0000#16 && hostGet16 t .hl == 0x9001#16 &&
        peek t 0xFFFF#16 == 0x42#8 && t.cpu.pc == 0x8002#16 && t.cpu.f.s == false && t.cpu.f.z == false &&
        t.cpu.f.h == false && t.cpu.f.pv == true && t.cpu.f.n == false && t.cpu.f.c == false &&
        t.tTotal == 16) = true := by decide +kernel

/-- LDIR (R267), row 9 of 42_exchange_block. -/
theorem test_LDIR :
    ends (base Config.standard |> hostSet16 .hl 0x9000#16 |> hostSet16 .de 0xA000#16 |> hostSet16 .bc 0x0002#16
        |> poke true 0x9000#16 0x01#8 |> placed 0x8000#16 [0xED#8, 0xB0#8]) (fun t =>
      hostGet16 t .bc == 0x0001#16 && hostGet16 t .de == 0xA001#16 && hostGet16 t .hl == 0x9001#16 &&
        peek t 0xA000#16 == 0x01#8 && t.cpu.pc == 0x8000#16 && t.cpu.f.s == false && t.cpu.f.z == false &&
        t.cpu.f.h == false && t.cpu.f.pv == true && t.cpu.f.n == false && t.cpu.f.c == false &&
        t.tTotal == 21) = true := by decide +kernel

/-- LDIR (R267), row 10 of 42_exchange_block. -/
theorem test_LDIR_case2 :
    ends (base Config.standard |> hostSet16 .hl 0x9000#16 |> hostSet16 .de 0xA000#16 |> hostSet16 .bc 0x0001#16
        |> poke true 0x9000#16 0x01#8 |> placed 0x8000#16 [0xED#8, 0xB0#8]) (fun t =>
      hostGet16 t .bc == 0x0000#16 && hostGet16 t .de == 0xA001#16 && hostGet16 t .hl == 0x9001#16 &&
        peek t 0xA000#16 == 0x01#8 && t.cpu.pc == 0x8002#16 && t.cpu.f.s == false && t.cpu.f.z == false &&
        t.cpu.f.h == false && t.cpu.f.pv == false && t.cpu.f.n == false && t.cpu.f.c == false &&
        t.tTotal == 16) = true := by decide +kernel

/-- CPI (R270), row 12 of 42_exchange_block. -/
theorem test_CPI :
    ends (base Config.standard |> hostSet8 .a 0x3B#8 |> hostSet16 .hl 0x9000#16 |> hostSet16 .bc 0x0001#16
        |> poke true 0x9000#16 0x3B#8 |> placed 0x8000#16 [0xED#8, 0xA1#8]) (fun t =>
      hostGet16 t .bc == 0x0000#16 && hostGet16 t .hl == 0x9001#16 && hostGet8 t .a == 0x3B#8 &&
        t.cpu.pc == 0x8002#16 && t.cpu.f.s == false && t.cpu.f.z == true && t.cpu.f.h == false &&
        t.cpu.f.pv == false && t.cpu.f.n == true && t.cpu.f.c == false && t.tTotal == 16) = true := by decide +kernel

/-- CPI (R270), row 13 of 42_exchange_block. -/
theorem test_CPI_case2 :
    ends (base Config.standard |> hostSet8 .a 0x00#8 |> hostSet16 .hl 0x9000#16 |> hostSet16 .bc 0x0005#16
        |> poke true 0x9000#16 0x01#8 |> withFlags { Flags.zero with c := true }
        |> placed 0x8000#16 [0xED#8, 0xA1#8]) (fun t =>
      hostGet16 t .bc == 0x0004#16 && hostGet16 t .hl == 0x9001#16 && t.cpu.pc == 0x8002#16 && t.cpu.f.s == true &&
        t.cpu.f.z == false && t.cpu.f.h == true && t.cpu.f.pv == true && t.cpu.f.n == true && t.cpu.f.c == true &&
        t.tTotal == 16) = true := by decide +kernel

/-- CPIR (R271), row 14 of 42_exchange_block. -/
theorem test_CPIR :
    ends (base Config.standard |> hostSet8 .a 0xF3#8 |> hostSet16 .hl 0x9000#16 |> hostSet16 .bc 0x0007#16
        |> poke true 0x9000#16 0x52#8 |> placed 0x8000#16 [0xED#8, 0xB1#8]) (fun t =>
      hostGet16 t .bc == 0x0006#16 && hostGet16 t .hl == 0x9001#16 && t.cpu.pc == 0x8000#16 && t.cpu.f.s == true &&
        t.cpu.f.z == false && t.cpu.f.h == false && t.cpu.f.pv == true && t.cpu.f.n == true &&
        t.cpu.f.c == false && t.tTotal == 21) = true := by decide +kernel

/-- CPIR (R271), row 15 of 42_exchange_block. -/
theorem test_CPIR_case2 :
    ends (base Config.standard |> hostSet8 .a 0xF3#8 |> hostSet16 .hl 0x9000#16 |> hostSet16 .bc 0x0007#16
        |> poke true 0x9000#16 0xF3#8 |> placed 0x8000#16 [0xED#8, 0xB1#8]) (fun t =>
      hostGet16 t .bc == 0x0006#16 && hostGet16 t .hl == 0x9001#16 && t.cpu.pc == 0x8002#16 &&
        t.cpu.f.s == false && t.cpu.f.z == true && t.cpu.f.h == false && t.cpu.f.pv == true && t.cpu.f.n == true &&
        t.cpu.f.c == false && t.tTotal == 16) = true := by decide +kernel

/-- CPDR (R273), row 18 of 42_exchange_block. -/
theorem test_CPDR :
    ends (base Config.standard |> hostSet8 .a 0x10#8 |> hostSet16 .hl 0x9000#16 |> hostSet16 .bc 0x0002#16
        |> poke true 0x9000#16 0x20#8 |> placed 0x8000#16 [0xED#8, 0xB9#8]) (fun t =>
      hostGet16 t .bc == 0x0001#16 && hostGet16 t .hl == 0x8FFF#16 && t.cpu.pc == 0x8000#16 && t.cpu.f.s == true &&
        t.cpu.f.z == false && t.cpu.f.h == false && t.cpu.f.pv == true && t.cpu.f.n == true &&
        t.cpu.f.c == false && t.tTotal == 21) = true := by decide +kernel

/-- ADD A,B (R284), row 1 of 43_arith8. -/
theorem test_ADD_A_B :
    ends (base Config.standard |> hostSet8 .a 0x7F#8 |> hostSet8 .b 0x01#8 |> placed 0x8000#16 [0x80#8]) (fun t =>
      hostGet8 t .a == 0x80#8 && t.cpu.pc == 0x8001#16 && t.cpu.f.s == true && t.cpu.f.z == false &&
        t.cpu.f.h == true && t.cpu.f.pv == true && t.cpu.f.n == false && t.cpu.f.c == false &&
        t.tTotal == 4) = true := by decide +kernel

/-- ADD A,B (R284), row 2 of 43_arith8. -/
theorem test_ADD_A_B_case2 :
    ends (base Config.standard |> hostSet8 .a 0xFF#8 |> hostSet8 .b 0x01#8 |> placed 0x8000#16 [0x80#8]) (fun t =>
      hostGet8 t .a == 0x00#8 && t.cpu.pc == 0x8001#16 && t.cpu.f.s == false && t.cpu.f.z == true &&
        t.cpu.f.h == true && t.cpu.f.pv == false && t.cpu.f.n == false && t.cpu.f.c == true &&
        t.tTotal == 4) = true := by decide +kernel

/-- ADC A,B (R289), row 7 of 43_arith8. -/
theorem test_ADC_A_B :
    ends (base Config.standard |> hostSet8 .a 0xFF#8 |> hostSet8 .b 0x00#8
        |> withFlags { Flags.zero with c := true } |> placed 0x8000#16 [0x88#8]) (fun t =>
      hostGet8 t .a == 0x00#8 && t.cpu.pc == 0x8001#16 && t.cpu.f.s == false && t.cpu.f.z == true &&
        t.cpu.f.h == true && t.cpu.f.pv == false && t.cpu.f.n == false && t.cpu.f.c == true &&
        t.tTotal == 4) = true := by decide +kernel

/-- SUB B (R294), row 9 of 43_arith8. -/
theorem test_SUB_B :
    ends (base Config.standard |> hostSet8 .a 0x00#8 |> hostSet8 .b 0x01#8 |> placed 0x8000#16 [0x90#8]) (fun t =>
      hostGet8 t .a == 0xFF#8 && t.cpu.pc == 0x8001#16 && t.cpu.f.s == true && t.cpu.f.z == false &&
        t.cpu.f.h == true && t.cpu.f.pv == false && t.cpu.f.n == true && t.cpu.f.c == true &&
        t.tTotal == 4) = true := by decide +kernel

/-- SUB B (R294), row 10 of 43_arith8. -/
theorem test_SUB_B_case2 :
    ends (base Config.standard |> hostSet8 .a 0x80#8 |> hostSet8 .b 0x01#8 |> placed 0x8000#16 [0x90#8]) (fun t =>
      hostGet8 t .a == 0x7F#8 && t.cpu.pc == 0x8001#16 && t.cpu.f.s == false && t.cpu.f.z == false &&
        t.cpu.f.h == true && t.cpu.f.pv == true && t.cpu.f.n == true && t.cpu.f.c == false &&
        t.tTotal == 4) = true := by decide +kernel

/-- SBC A,A (R299), row 13 of 43_arith8. -/
theorem test_SBC_A_A :
    ends (base Config.standard |> hostSet8 .a 0x44#8 |> withFlags { Flags.zero with c := true }
        |> placed 0x8000#16 [0x9F#8]) (fun t =>
      hostGet8 t .a == 0xFF#8 && t.cpu.pc == 0x8001#16 && t.cpu.f.s == true && t.cpu.f.z == false &&
        t.cpu.f.h == true && t.cpu.f.pv == false && t.cpu.f.n == true && t.cpu.f.c == true &&
        t.tTotal == 4) = true := by decide +kernel

/-- SBC A,B (R299), row 14 of 43_arith8. -/
theorem test_SBC_A_B :
    ends (base Config.standard |> hostSet8 .a 0x00#8 |> hostSet8 .b 0xFF#8
        |> withFlags { Flags.zero with c := true } |> placed 0x8000#16 [0x98#8]) (fun t =>
      hostGet8 t .a == 0x00#8 && t.cpu.pc == 0x8001#16 && t.cpu.f.s == false && t.cpu.f.z == true &&
        t.cpu.f.h == true && t.cpu.f.pv == false && t.cpu.f.n == true && t.cpu.f.c == true &&
        t.tTotal == 4) = true := by decide +kernel

/-- AND B (R304), row 15 of 43_arith8. -/
theorem test_AND_B :
    ends (base Config.standard |> hostSet8 .a 0xF0#8 |> hostSet8 .b 0x3C#8 |> placed 0x8000#16 [0xA0#8]) (fun t =>
      hostGet8 t .a == 0x30#8 && t.cpu.pc == 0x8001#16 && t.cpu.f.s == false && t.cpu.f.z == false &&
        t.cpu.f.h == true && t.cpu.f.pv == true && t.cpu.f.n == false && t.cpu.f.c == false &&
        t.tTotal == 4) = true := by decide +kernel

/-- OR A (R309), row 18 of 43_arith8. -/
theorem test_OR_A :
    ends (base Config.standard |> hostSet8 .a 0x00#8 |> withFlags { Flags.zero with c := true }
        |> placed 0x8000#16 [0xB7#8]) (fun t =>
      hostGet8 t .a == 0x00#8 && t.cpu.pc == 0x8001#16 && t.cpu.f.s == false && t.cpu.f.z == true &&
        t.cpu.f.h == false && t.cpu.f.pv == true && t.cpu.f.n == false && t.cpu.f.c == false &&
        t.tTotal == 4) = true := by decide +kernel

/-- CP 0x80 (R320), row 22 of 43_arith8. -/
theorem test_CP_0x80 :
    ends (base Config.standard |> hostSet8 .a 0x7F#8 |> placed 0x8000#16 [0xFE#8, 0x80#8]) (fun t =>
      hostGet8 t .a == 0x7F#8 && t.cpu.pc == 0x8002#16 && t.cpu.f.s == true && t.cpu.f.z == false &&
        t.cpu.f.h == false && t.cpu.f.pv == true && t.cpu.f.n == true && t.cpu.f.c == true &&
        t.tTotal == 7) = true := by decide +kernel

/-- INC A (R324), row 24 of 43_arith8. -/
theorem test_INC_A :
    ends (base Config.standard |> hostSet8 .a 0x7F#8 |> withFlags { Flags.zero with c := true }
        |> placed 0x8000#16 [0x3C#8]) (fun t =>
      hostGet8 t .a == 0x80#8 && t.cpu.pc == 0x8001#16 && t.cpu.f.s == true && t.cpu.f.z == false &&
        t.cpu.f.h == true && t.cpu.f.pv == true && t.cpu.f.n == false && t.cpu.f.c == true &&
        t.tTotal == 4) = true := by decide +kernel

/-- DEC B (R328), row 26 of 43_arith8. -/
theorem test_DEC_B :
    ends (base Config.standard |> hostSet8 .b 0x80#8 |> placed 0x8000#16 [0x05#8]) (fun t =>
      hostGet8 t .b == 0x7F#8 && t.cpu.pc == 0x8001#16 && t.cpu.f.s == false && t.cpu.f.z == false &&
        t.cpu.f.h == true && t.cpu.f.pv == true && t.cpu.f.n == true && t.cpu.f.c == false &&
        t.tTotal == 4) = true := by decide +kernel

/-- DEC (HL) (R329), row 30 of 43_arith8. -/
theorem test_DEC_HL :
    ends (base withRom |> hostSet16 .hl 0x0100#16 |> poke true 0x0100#16 0x01#8
        |> placed 0x8000#16 [0x35#8]) (fun t =>
      peek t 0x0100#16 == 0x01#8 && t.cpu.pc == 0x8001#16 && t.cpu.f.s == false && t.cpu.f.z == true &&
        t.cpu.f.h == false && t.cpu.f.pv == false && t.cpu.f.n == true && t.cpu.f.c == false &&
        t.tTotal == 11) = true := by decide +kernel

/-- INC (IY-2) (R327), row 31 of 43_arith8. -/
theorem test_INC_IY_2 :
    ends (base Config.standard |> hostSet16 .iy 0x9002#16 |> poke true 0x9000#16 0xFF#8
        |> placed 0x8000#16 [0xFD#8, 0x34#8, 0xFE#8]) (fun t =>
      peek t 0x9000#16 == 0x00#8 && t.cpu.pc == 0x8003#16 && t.cpu.f.s == false && t.cpu.f.z == true &&
        t.cpu.f.h == true && t.cpu.f.pv == false && t.cpu.f.n == false && t.cpu.f.c == false &&
        t.tTotal == 23) = true := by decide +kernel

/-- DAA (R340), row 1 of 44_general_cpu. -/
theorem test_DAA :
    ends (base Config.standard |> hostSet8 .a 0x3C#8 |> placed 0x8000#16 [0x27#8]) (fun t =>
      hostGet8 t .a == 0x42#8 && t.cpu.pc == 0x8001#16 && t.cpu.f.s == false && t.cpu.f.z == false &&
        t.cpu.f.h == true && t.cpu.f.pv == true && t.cpu.f.n == false && t.cpu.f.c == false &&
        t.tTotal == 4) = true := by decide +kernel

/-- DAA (R340), row 4 of 44_general_cpu. -/
theorem test_DAA_case2 :
    ends (base Config.standard |> hostSet8 .a 0xFA#8
        |> withFlags { Flags.zero with n := true, h := true, c := true } |> placed 0x8000#16 [0x27#8]) (fun t =>
      hostGet8 t .a == 0x94#8 && t.cpu.pc == 0x8001#16 && t.cpu.f.s == true && t.cpu.f.z == false &&
        t.cpu.f.h == false && t.cpu.f.pv == false && t.cpu.f.n == true && t.cpu.f.c == true &&
        t.tTotal == 4) = true := by decide +kernel

/-- NEG (R342), row 8 of 44_general_cpu. -/
theorem test_NEG :
    ends (base Config.standard |> hostSet8 .a 0x80#8 |> placed 0x8000#16 [0xED#8, 0x44#8]) (fun t =>
      hostGet8 t .a == 0x80#8 && t.cpu.pc == 0x8002#16 && t.cpu.f.s == true && t.cpu.f.z == false &&
        t.cpu.f.h == false && t.cpu.f.pv == true && t.cpu.f.n == true && t.cpu.f.c == true &&
        t.tTotal == 8) = true := by decide +kernel

/-- CCF (R343), row 11 of 44_general_cpu. -/
theorem test_CCF :
    ends (base Config.standard |> withFlags { Flags.zero with c := true } |> placed 0x8000#16 [0x3F#8]) (fun t =>
      t.cpu.pc == 0x8001#16 && t.cpu.f.s == false && t.cpu.f.z == false && t.cpu.f.h == true &&
        t.cpu.f.pv == false && t.cpu.f.n == false && t.cpu.f.c == false && t.tTotal == 4) = true := by decide +kernel

/-- HALT (R346), row 15 of 44_general_cpu. -/
theorem test_HALT :
    ends (base Config.standard |> placed 0x8000#16 [0x76#8]) (fun t =>
      t.cpu.halted == true && t.cpu.pc == 0x8000#16 && t.tTotal == 4) = true := by decide +kernel

/-- EI (R348), row 17 of 44_general_cpu. -/
theorem test_EI :
    ends (base Config.standard |> placed 0x8000#16 [0xFB#8]) (fun t =>
      t.cpu.iff1 == true && t.cpu.iff2 == true && t.cpu.eiShadow == true && t.cpu.pc == 0x8001#16 &&
        t.tTotal == 4) = true := by decide +kernel

/-- IM 2 (R351), row 18 of 44_general_cpu. -/
theorem test_IM_2 :
    ends (base Config.standard |> placed 0x8000#16 [0xED#8, 0x5E#8]) (fun t =>
      t.cpu.pc == 0x8002#16 && t.tTotal == 8) = true := by decide +kernel

/-- ADD HL,DE (R360), row 2 of 45_arith16. -/
theorem test_ADD_HL_DE :
    ends (base Config.standard |> hostSet16 .hl 0xFFFF#16 |> hostSet16 .de 0x0001#16
        |> withFlags { Flags.zero with z := true, s := true, pv := true } |> placed 0x8000#16 [0x19#8]) (fun t =>
      hostGet16 t .hl == 0x0000#16 && t.cpu.pc == 0x8001#16 && t.cpu.f.s == true && t.cpu.f.z == true &&
        t.cpu.f.h == true && t.cpu.f.pv == true && t.cpu.f.n == false && t.cpu.f.c == true &&
        t.tTotal == 11) = true := by decide +kernel

/-- ADC HL,BC (R361), row 5 of 45_arith16. -/
theorem test_ADC_HL_BC :
    ends (base Config.standard |> hostSet16 .hl 0x7FFF#16 |> hostSet16 .bc 0x0000#16
        |> withFlags { Flags.zero with c := true } |> placed 0x8000#16 [0xED#8, 0x4A#8]) (fun t =>
      hostGet16 t .hl == 0x8000#16 && t.cpu.pc == 0x8002#16 && t.cpu.f.s == true && t.cpu.f.z == false &&
        t.cpu.f.h == true && t.cpu.f.pv == true && t.cpu.f.n == false && t.cpu.f.c == false &&
        t.tTotal == 15) = true := by decide +kernel

/-- SBC HL,HL (R362), row 8 of 45_arith16. -/
theorem test_SBC_HL_HL :
    ends (base Config.standard |> hostSet16 .hl 0x1234#16 |> withFlags { Flags.zero with c := true }
        |> placed 0x8000#16 [0xED#8, 0x62#8]) (fun t =>
      hostGet16 t .hl == 0xFFFF#16 && t.cpu.pc == 0x8002#16 && t.cpu.f.s == true && t.cpu.f.z == false &&
        t.cpu.f.h == true && t.cpu.f.pv == false && t.cpu.f.n == true && t.cpu.f.c == true &&
        t.tTotal == 15) = true := by decide +kernel

/-- SBC HL,DE (R362), row 9 of 45_arith16. -/
theorem test_SBC_HL_DE :
    ends (base Config.standard |> hostSet16 .hl 0x8000#16 |> hostSet16 .de 0x0001#16 |> placed 0x8000#16 [0xED#8,
        0x52#8]) (fun t =>
      hostGet16 t .hl == 0x7FFF#16 && t.cpu.pc == 0x8002#16 && t.cpu.f.s == false && t.cpu.f.z == false &&
        t.cpu.f.h == true && t.cpu.f.pv == true && t.cpu.f.n == true && t.cpu.f.c == false &&
        t.tTotal == 15) = true := by decide +kernel

/-- ADD IY,SP (R364), row 12 of 45_arith16. -/
theorem test_ADD_IY_SP :
    ends (base Config.standard |> hostSet16 .iy 0xF000#16 |> hostSet16 .sp 0x1000#16 |> placed 0x8000#16 [0xFD#8,
        0x39#8]) (fun t =>
      hostGet16 t .iy == 0x0000#16 && t.cpu.pc == 0x8002#16 && t.cpu.f.s == false && t.cpu.f.z == false &&
        t.cpu.f.h == false && t.cpu.f.pv == false && t.cpu.f.n == false && t.cpu.f.c == true &&
        t.tTotal == 15) = true := by decide +kernel

/-- INC SP (R365), row 14 of 45_arith16. -/
theorem test_INC_SP :
    ends (base Config.standard |> hostSet16 .sp 0xFFFF#16 |> placed 0x8000#16 [0x33#8]) (fun t =>
      hostGet16 t .sp == 0x0000#16 && t.cpu.pc == 0x8001#16 && t.tTotal == 6) = true := by decide +kernel

/-- RLCA (R382), row 1 of 46_rotate_shift. -/
theorem test_RLCA :
    ends (base Config.standard |> hostSet8 .a 0x81#8
        |> withFlags { Flags.zero with z := true, s := true, pv := true } |> placed 0x8000#16 [0x07#8]) (fun t =>
      hostGet8 t .a == 0x03#8 && t.cpu.pc == 0x8001#16 && t.cpu.f.s == true && t.cpu.f.z == true &&
        t.cpu.f.h == false && t.cpu.f.pv == true && t.cpu.f.n == false && t.cpu.f.c == true &&
        t.tTotal == 4) = true := by decide +kernel

/-- RLA (R383), row 4 of 46_rotate_shift. -/
theorem test_RLA :
    ends (base Config.standard |> hostSet8 .a 0x00#8 |> withFlags { Flags.zero with c := true }
        |> placed 0x8000#16 [0x17#8]) (fun t =>
      hostGet8 t .a == 0x01#8 && t.cpu.pc == 0x8001#16 && t.cpu.f.s == false && t.cpu.f.z == false &&
        t.cpu.f.h == false && t.cpu.f.pv == false && t.cpu.f.n == false && t.cpu.f.c == false &&
        t.tTotal == 4) = true := by decide +kernel

/-- RR E (R398), row 11 of 46_rotate_shift. -/
theorem test_RR_E :
    ends (base Config.standard |> hostSet8 .e 0x00#8 |> withFlags { Flags.zero with c := true }
        |> placed 0x8000#16 [0xCB#8, 0x1B#8]) (fun t =>
      hostGet8 t .e == 0x80#8 && t.cpu.pc == 0x8002#16 && t.cpu.f.s == true && t.cpu.f.z == false &&
        t.cpu.f.h == false && t.cpu.f.pv == false && t.cpu.f.n == false && t.cpu.f.c == false &&
        t.tTotal == 8) = true := by decide +kernel

/-- SRA L (R406), row 13 of 46_rotate_shift. -/
theorem test_SRA_L :
    ends (base Config.standard |> hostSet8 .l 0x81#8 |> placed 0x8000#16 [0xCB#8, 0x2D#8]) (fun t =>
      hostGet8 t .l == 0xC0#8 && t.cpu.pc == 0x8002#16 && t.cpu.f.s == true && t.cpu.f.z == false &&
        t.cpu.f.h == false && t.cpu.f.pv == true && t.cpu.f.n == false && t.cpu.f.c == true &&
        t.tTotal == 8) = true := by decide +kernel

/-- SLA (IX+1) (R404), row 18 of 46_rotate_shift. -/
theorem test_SLA_IX_1 :
    ends (base Config.standard |> hostSet16 .ix 0x9000#16 |> poke true 0x9001#16 0x7F#8
        |> placed 0x8000#16 [0xDD#8, 0xCB#8, 0x01#8, 0x26#8]) (fun t =>
      peek t 0x9001#16 == 0xFE#8 && t.cpu.pc == 0x8004#16 && t.cpu.f.s == true && t.cpu.f.z == false &&
        t.cpu.f.h == false && t.cpu.f.pv == false && t.cpu.f.n == false && t.cpu.f.c == false &&
        t.tTotal == 23) = true := by decide +kernel

/-- RLD (R414), row 21 of 46_rotate_shift. -/
theorem test_RLD :
    ends (base Config.standard |> hostSet8 .a 0x7A#8 |> hostSet16 .hl 0x9000#16 |> poke true 0x9000#16 0x31#8
        |> placed 0x8000#16 [0xED#8, 0x6F#8]) (fun t =>
      hostGet8 t .a == 0x73#8 && peek t 0x9000#16 == 0x1A#8 && t.cpu.pc == 0x8002#16 && t.cpu.f.s == false &&
        t.cpu.f.z == false && t.cpu.f.h == false && t.cpu.f.pv == false && t.cpu.f.n == false &&
        t.cpu.f.c == false && t.tTotal == 18) = true := by decide +kernel

/-- RRD (R415), row 22 of 46_rotate_shift. -/
theorem test_RRD :
    ends (base Config.standard |> hostSet8 .a 0x84#8 |> hostSet16 .hl 0x9000#16 |> poke true 0x9000#16 0x20#8
        |> placed 0x8000#16 [0xED#8, 0x67#8]) (fun t =>
      hostGet8 t .a == 0x80#8 && peek t 0x9000#16 == 0x42#8 && t.cpu.pc == 0x8002#16 && t.cpu.f.s == true &&
        t.cpu.f.z == false && t.cpu.f.h == false && t.cpu.f.pv == false && t.cpu.f.n == false &&
        t.cpu.f.c == false && t.tTotal == 18) = true := by decide +kernel

/-- BIT 0,A (R420), row 2 of 47_bit. -/
theorem test_BIT_0_A :
    ends (base Config.standard |> hostSet8 .a 0xFE#8 |> withFlags { Flags.zero with c := true }
        |> placed 0x8000#16 [0xCB#8, 0x47#8]) (fun t =>
      hostGet8 t .a == 0xFE#8 && t.cpu.pc == 0x8002#16 && t.cpu.f.z == true && t.cpu.f.h == true &&
        t.cpu.f.n == false && t.cpu.f.c == true && t.tTotal == 8) = true := by decide +kernel

/-- BIT 1,(IY-128) (R423), row 7 of 47_bit. -/
theorem test_BIT_1_IY_128 :
    ends (base Config.standard |> hostSet16 .iy 0x9080#16 |> poke true 0x9000#16 0xFD#8
        |> placed 0x8000#16 [0xFD#8, 0xCB#8, 0x80#8, 0x4E#8]) (fun t =>
      t.cpu.pc == 0x8004#16 && t.cpu.f.z == true && t.cpu.f.h == true && t.cpu.f.n == false &&
        t.cpu.f.c == false && t.tTotal == 20) = true := by decide +kernel

/-- SET 0,(IX+3) (R426), row 12 of 47_bit. -/
theorem test_SET_0_IX_3 :
    ends (base Config.standard |> hostSet16 .ix 0x9000#16 |> poke true 0x9003#16 0xF0#8
        |> placed 0x8000#16 [0xDD#8, 0xCB#8, 0x03#8, 0xC6#8]) (fun t =>
      peek t 0x9003#16 == 0xF1#8 && t.cpu.pc == 0x8004#16 && t.tTotal == 23) = true := by decide +kernel

/-- RES 3,(IY+0) (R431), row 15 of 47_bit. -/
theorem test_RES_3_IY_0 :
    ends (base Config.standard |> hostSet16 .iy 0x9000#16 |> poke true 0x9000#16 0xFF#8
        |> placed 0x8000#16 [0xFD#8, 0xCB#8, 0x00#8, 0x9E#8]) (fun t =>
      peek t 0x9000#16 == 0xF7#8 && t.cpu.pc == 0x8004#16 && t.tTotal == 23) = true := by decide +kernel

/-- JP NZ,0x9000 (R441), row 3 of 48_jump_call. -/
theorem test_JP_NZ_0x9000 :
    ends (base Config.standard |> withFlags { Flags.zero with z := true }
        |> placed 0x8000#16 [0xC2#8, 0x00#8, 0x90#8]) (fun t =>
      t.cpu.pc == 0x8003#16 && t.tTotal == 10) = true := by decide +kernel

/-- JR 0xFFFF (R442), row 9 of 48_jump_call. -/
theorem test_JR_0xFFFF :
    ends (base Config.standard |> placed 0x0000#16 [0x18#8, 0xFD#8]) (fun t =>
      t.cpu.pc == 0xFFFF#16 && t.tTotal == 12) = true := by decide +kernel

/-- JR C,0x8012 (R443), row 10 of 48_jump_call. -/
theorem test_JR_C_0x8012 :
    ends (base Config.standard |> placed 0x8000#16 [0x38#8, 0x10#8]) (fun t =>
      t.cpu.pc == 0x8002#16 && t.tTotal == 7) = true := by decide +kernel

/-- JR NC,0x8002 (R444), row 14 of 48_jump_call. -/
theorem test_JR_NC_0x8002 :
    ends (base Config.standard |> placed 0x8000#16 [0x30#8, 0x00#8]) (fun t =>
      t.cpu.pc == 0x8002#16 && t.tTotal == 12) = true := by decide +kernel

/-- DJNZ 0x8000 (R450), row 17 of 48_jump_call. -/
theorem test_DJNZ_0x8000 :
    ends (base Config.standard |> hostSet8 .b 0x02#8 |> placed 0x8000#16 [0x10#8, 0xFE#8]) (fun t =>
      hostGet8 t .b == 0x01#8 && t.cpu.pc == 0x8000#16 && t.tTotal == 13) = true := by decide +kernel

/-- DJNZ 0x8000 (R450), row 19 of 48_jump_call. -/
theorem test_DJNZ_0x8000_case2 :
    ends (base Config.standard |> hostSet8 .b 0x00#8 |> placed 0x8000#16 [0x10#8, 0xFE#8]) (fun t =>
      hostGet8 t .b == 0xFF#8 && t.cpu.pc == 0x8000#16 && t.tTotal == 13) = true := by decide +kernel

/-- CALL 0x9000 (R451), row 21 of 48_jump_call. -/
theorem test_CALL_0x9000 :
    ends (base Config.standard |> hostSet16 .sp 0x0001#16 |> placed 0xFFFE#16 [0xCD#8, 0x00#8, 0x90#8]) (fun t =>
      hostGet16 t .sp == 0xFFFF#16 && peek t 0x0000#16 == 0x00#8 && peek t 0xFFFF#16 == 0x01#8 &&
        t.cpu.pc == 0x9000#16 && t.tTotal == 17) = true := by decide +kernel

/-- CALL Z,0x9000 (R452), row 22 of 48_jump_call. -/
theorem test_CALL_Z_0x9000 :
    ends (base Config.standard |> hostSet16 .sp 0xC000#16 |> placed 0x8000#16 [0xCC#8, 0x00#8, 0x90#8]) (fun t =>
      hostGet16 t .sp == 0xC000#16 && t.cpu.pc == 0x8003#16 && t.tTotal == 10) = true := by decide +kernel

/-- RET C (R454), row 26 of 48_jump_call. -/
theorem test_RET_C :
    ends (base Config.standard |> hostSet16 .sp 0xBFFE#16 |> placed 0x8000#16 [0xD8#8]) (fun t =>
      hostGet16 t .sp == 0xBFFE#16 && t.cpu.pc == 0x8001#16 && t.tTotal == 5) = true := by decide +kernel

/-- RETI (R455), row 27 of 48_jump_call. -/
theorem test_RETI :
    ends (base Config.standard |> hostSet16 .sp 0xBFFE#16 |> poke true 0xBFFE#16 0x03#8
        |> poke true 0xBFFF#16 0x80#8 |> withIff false true |> placed 0x8000#16 [0xED#8, 0x4D#8]) (fun t =>
      hostGet16 t .sp == 0xC000#16 && t.cpu.iff1 == false && t.cpu.iff2 == true && t.cpu.pc == 0x8003#16 &&
        t.tTotal == 14) = true := by decide +kernel

/-- RETN (R456), row 28 of 48_jump_call. -/
theorem test_RETN :
    ends (base Config.standard |> hostSet16 .sp 0xBFFE#16 |> poke true 0xBFFE#16 0x03#8
        |> poke true 0xBFFF#16 0x80#8 |> withIff false true |> placed 0x8000#16 [0xED#8, 0x45#8]) (fun t =>
      hostGet16 t .sp == 0xC000#16 && t.cpu.iff1 == true && t.cpu.pc == 0x8003#16 &&
        t.tTotal == 14) = true := by decide +kernel

/-- RST 00H (R457), row 30 of 48_jump_call. -/
theorem test_RST_00H :
    ends (base Config.standard |> hostSet16 .sp 0xC000#16 |> placed 0x1234#16 [0xC7#8]) (fun t =>
      hostGet16 t .sp == 0xBFFE#16 && peek t 0xBFFE#16 == 0x35#8 && peek t 0xBFFF#16 == 0x12#8 &&
        t.cpu.pc == 0x0000#16 && t.tTotal == 11) = true := by decide +kernel

/-- IN A,(0xFE) (R470), row 1 of 49_io. -/
theorem test_IN_A_0xFE :
    ends (base (answering 0x7FFE#16 0xBF#8) |> hostSet8 .a 0x7F#8
        |> withFlags { Flags.zero with z := true, c := true } |> placed 0x8000#16 [0xDB#8, 0xFE#8]) (fun t =>
      hostGet8 t .a == 0xBF#8 && t.cpu.pc == 0x8002#16 && t.tTotal == 11) = true := by decide +kernel

/-- IN B,(C) (R471), row 2 of 49_io. -/
theorem test_IN_B_C :
    ends (base (answering 0x12FE#16 0x00#8) |> hostSet16 .bc 0x12FE#16 |> placed 0x8000#16 [0xED#8, 0x40#8]) (fun t =>
      hostGet16 t .bc == 0x00FE#16 && hostGet8 t .b == 0x00#8 && t.cpu.pc == 0x8002#16 && t.cpu.f.s == false &&
        t.cpu.f.z == true && t.cpu.f.h == false && t.cpu.f.pv == true && t.cpu.f.n == false &&
        t.cpu.f.c == false && t.tTotal == 12) = true := by decide +kernel

/-- OUT (C),A (R477), row 6 of 49_io. -/
theorem test_OUT_C_A :
    ends (base recorder |> hostSet16 .bc 0x7FFD#16 |> hostSet8 .a 0x10#8 |> placed 0x8000#16 [0xED#8,
        0x79#8]) (fun t =>
      t.periph == [0x7F#8, 0xFD#8, 0x10#8] && t.cpu.pc == 0x8002#16 && t.tTotal == 12) = true := by decide +kernel

/-- INI (R472), row 8 of 49_io. -/
theorem test_INI :
    ends (base (answering 0x0107#16 0x7B#8) |> hostSet16 .bc 0x0107#16 |> hostSet16 .hl 0x9000#16
        |> placed 0x8000#16 [0xED#8, 0xA2#8]) (fun t =>
      hostGet16 t .bc == 0x0007#16 && hostGet16 t .hl == 0x9001#16 && peek t 0x9000#16 == 0x7B#8 &&
        t.cpu.pc == 0x8002#16 && t.cpu.f.z == true && t.cpu.f.n == true && t.cpu.f.c == false &&
        t.tTotal == 16) = true := by decide +kernel

/-- INIR (R473), row 10 of 49_io. -/
theorem test_INIR :
    ends (base (answering 0x0207#16 0x7B#8) |> hostSet16 .bc 0x0207#16 |> hostSet16 .hl 0x9000#16
        |> placed 0x8000#16 [0xED#8, 0xB2#8]) (fun t =>
      hostGet16 t .bc == 0x0107#16 && hostGet16 t .hl == 0x9001#16 && peek t 0x9000#16 == 0x7B#8 &&
        t.cpu.pc == 0x8000#16 && t.cpu.f.z == false && t.cpu.f.n == true && t.cpu.f.c == false &&
        t.tTotal == 21) = true := by decide +kernel

/-- OUTI (R478), row 14 of 49_io. -/
theorem test_OUTI :
    ends (base recorder |> hostSet16 .bc 0x0207#16 |> hostSet16 .hl 0x9000#16 |> poke true 0x9000#16 0x59#8
        |> placed 0x8000#16 [0xED#8, 0xA3#8]) (fun t =>
      t.periph == [0x01#8, 0x07#8, 0x59#8] && hostGet16 t .bc == 0x0107#16 && hostGet16 t .hl == 0x9001#16 &&
        t.cpu.pc == 0x8002#16 && t.cpu.f.z == false && t.cpu.f.n == true && t.cpu.f.c == false &&
        t.tTotal == 16) = true := by decide +kernel

/-- OTIR (R479), row 17 of 49_io. -/
theorem test_OTIR :
    ends (base recorder |> hostSet16 .bc 0x0107#16 |> hostSet16 .hl 0x9000#16 |> poke true 0x9000#16 0x51#8
        |> placed 0x8000#16 [0xED#8, 0xB3#8]) (fun t =>
      t.periph == [0x00#8, 0x07#8, 0x51#8] && hostGet16 t .bc == 0x0007#16 && hostGet16 t .hl == 0x9001#16 &&
        t.cpu.pc == 0x8002#16 && t.cpu.f.z == true && t.cpu.f.n == true && t.cpu.f.c == false &&
        t.tTotal == 16) = true := by decide +kernel

/-- OUTD (R480), row 18 of 49_io. -/
theorem test_OUTD :
    ends (base recorder |> hostSet16 .bc 0x0207#16 |> hostSet16 .hl 0x9000#16 |> poke true 0x9000#16 0x59#8
        |> placed 0x8000#16 [0xED#8, 0xAB#8]) (fun t =>
      t.periph == [0x01#8, 0x07#8, 0x59#8] && hostGet16 t .bc == 0x0107#16 && hostGet16 t .hl == 0x8FFF#16 &&
        t.cpu.pc == 0x8002#16 && t.cpu.f.z == false && t.cpu.f.n == true && t.cpu.f.c == false &&
        t.tTotal == 16) = true := by decide +kernel


/-! ### Interrupts (60_exceptions.md R523, R535; 95_test_vectors.md section 3) -/

/-- The state of R523 (a). -/
def beforeEntry : State :=
  base Config.standard |> hostSet16 .pc 0x8003#16 |> hostSet16 .sp 0xFF00#16 |> hostSet8 .r 0x10#8 |>
    withIff true true |> fun s => { s with cpu := { s.cpu with im := .im1 } }

/-- The entry returns these T-states and its state has the property. -/
def enters (nmi : Bool) (bus : Byte) (s : State) (t : Nat) (p : State → Bool) : Bool :=
  (generateInterrupt nmi bus s).1 == t && p (generateInterrupt nmi bus s).2

/-- R523 (a). -/
theorem test_entry_mode1 : enters false 0xFF#8 beforeEntry 13 (fun t =>
    peek t 0xFEFF#16 == 0x80#8 && peek t 0xFEFE#16 == 0x03#8 && t.cpu.sp == 0xFEFE#16 && t.cpu.pc == 0x0038#16 &&
      !t.cpu.iff1 && !t.cpu.iff2 && t.cpu.r == 0x11#8) = true := by decide +kernel

/-- R523 (b). -/
theorem test_entry_mode2 :
    enters false 0xFE#8 (beforeEntry |> hostSet8 .i 0x3B#8 |> poke true 0x3BFE#16 0x21#8 |> poke true 0x3BFF#16 0x43#8
      |> fun s => { s with cpu := { s.cpu with im := .im2 } }) 19 (fun t => t.cpu.pc == 0x4321#16) = true := by
  decide +kernel

/-- R523 (c). -/
theorem test_entry_leaves_halt :
    enters false 0xFF#8 { beforeEntry with cpu := { beforeEntry.cpu with halted := true } } 13 (fun t =>
      peek t 0xFEFF#16 == 0x80#8 && peek t 0xFEFE#16 == 0x04#8 && !t.cpu.halted) = true := by decide +kernel

/-- R523 (d). -/
theorem test_entry_nmi :
    enters true 0xFF#8 (base Config.standard |> hostSet16 .pc 0x1234#16 |> hostSet16 .sp 0x0001#16 |>
      withIff true true) 11 (fun t =>
      peek t 0x0000#16 == 0x12#8 && peek t 0xFFFF#16 == 0x34#8 && t.cpu.sp == 0xFFFF#16 && t.cpu.pc == 0x0066#16 &&
        !t.cpu.iff1 && t.cpu.iff2) = true := by decide +kernel

/-- R523 (e). -/
theorem test_entry_disabled :
    generateInterrupt false 0xFF#8 (withIff false true beforeEntry) = (0, withIff false true beforeEntry) := by
  decide +kernel

/-- R523 (f). -/
theorem test_entry_mode0 :
    enters false 0xD7#8 { beforeEntry with cpu := { beforeEntry.cpu with im := .im0 } } 13 (fun t =>
      t.cpu.pc == 0x0010#16) = true := by decide +kernel

/-- The state of R535 before its first call. -/
def beforeEdge : State :=
  base { Config.standard with rIntBit := some 6 } |> hostSet16 .pc 0x4000#16 |> hostSet16 .sp 0x8000#16 |>
    hostSet8 .r 0x7E#8 |> withIff true true |>
    fun s => { s with cpu := { s.cpu with im := .im1 }, ula := { s.ula with prevR := 0x7E#8 } }

/-- R535: the third call takes the interrupt the second one scheduled. -/
theorem test_refresh_interrupt :
    (runCalls 2 beforeEdge).any (fun u => u.2 == 8 && u.1.cpu.intDeferred && u.1.cpu.pc == 0x4002#16) = true ∧
    (runCalls 3 beforeEdge).any (fun u => u.2 == 8 + 17 && u.1.cpu.pc == 0x0038#16 && u.1.cpu.r == 0x02#8 &&
      u.1.ula.prevR == 0x02#8 && peek u.1 0x7FFF#16 == 0x40#8 && peek u.1 0x7FFE#16 == 0x03#8 &&
      !u.1.cpu.iff1 && !u.1.cpu.iff2) = true := by decide +kernel

/-- 95_test_vectors.md section 3, `EI` shadow: the deferred request presented at the end of `EI` is dropped. -/
theorem test_ei_shadow :
    ends (base Config.standard |> hostSet16 .sp 0xC000#16 |> placed 0x8000#16 [0xFB#8, 0x00#8] |>
      fun s => { s with cpu := { s.cpu with im := .im1, intDeferred := true } }) (fun t =>
      t.cpu.pc == 0x8001#16 && t.tTotal == 4 && t.cpu.iff1 && t.cpu.eiShadow &&
        ends t (fun u => u.cpu.pc == 0x8002#16 && u.tTotal == 8 && u.cpu.iff1)) = true := by decide +kernel

/-- 95_test_vectors.md P5, steps 52 and 53: the NMI of a horizontal-sync edge releases a `HALT`; `RETN`. -/
theorem test_nmi_from_ula :
    ends (base { Config.standard with ulaVariant := .bufferReplay } |> hostSet16 .sp 0xC000#16 |> withIff true true |>
      poke true 0x0066#16 0xED#8 |> poke true 0x0067#16 0x45#8 |> placed 0x8000#16 [0x76#8] |>
      fun s => { s with tTotal := 204, ula := { s.ula with nmiOn := true, t := 204, lineT := 204 } }) (fun t =>
      t.cpu.pc == 0x0066#16 && t.cpu.sp == 0xBFFE#16 && !t.cpu.iff1 && t.cpu.iff2 && !t.cpu.halted &&
        t.ula.lineT == 12 && t.ula.line == 1 && t.tTotal == 219 && peek t 0xBFFF#16 == 0x80#8 &&
        peek t 0xBFFE#16 == 0x01#8 &&
        ends t (fun u => u.cpu.pc == 0x8001#16 && u.cpu.iff1 && u.ula.lineT == 26 && u.tTotal == 233)) = true := by
  decide +kernel

/-- A character byte runs as `NOP` and adds its glyph, inverted or not, to the line record, whenever the configuration
has the character table read (R553; 20_memory.md R120). -/
theorem test_character_shown : ∀ when ∈ [CharRead.atFetch, .inUlaStep], ∀ inverted ∈ [[], [0x41#8]],
    ends (base { Config.standard with
        ulaVariant := .busReplay, charData := [0x41#8], charInvert := inverted
        charGen := .fixed 0x9000#16, charRead := when } |> poke true 0x9000#16 0x3C#8 |> placed 0x8000#16 [0x41#8])
      (fun t => t.cpu.pc == 0x8001#16 && t.tTotal == 4 && t.cpu.b == 0x00#8 && t.ula.pendingChar.isNone &&
        t.ula.scanRec == [if inverted.isEmpty then 0x3C#8 else 0xC3#8]) = true := by decide +kernel

/-! ### The host (60_exceptions.md R563, R568; 00_scope.md R4, R9) -/

/-- `pause` is delivered only while a run has yielded (R568). -/
theorem test_pause_while_idle :
    hostDo .pause (base Config.standard) = .error .notYielded ∧
    (hostDo .pause (beginContinue none none (base Config.standard))).toOption.any (fun s => s.dbg.pauseReq) = true := by
  decide +kernel

/-- A log-only breakpoint does not stop; one that also stops does; both emit their message (R563). -/
theorem test_log_breakpoints :
    let check := fun (action : BreakAction) =>
      breakpointCheck { base Config.standard with
        dbg := { Debug.reset with breakpoints := [⟨0x0000#16, none, action⟩] } }
    (check (.logOnly "A")).1 = false ∧ (check (.logAndStop "A")).1 = true ∧ (check .stop).1 = true ∧
    (check (.logOnly "A")).2.notices = [.logMessage 0x0000#16 "A"] ∧
    (check (.logAndStop "A")).2.notices = [.logMessage 0x0000#16 "A"] ∧ (check .stop).2.notices = [] := by decide +kernel

/-- A raised interrupt is one entry; its T-states are counted (R4, R523 (a)). -/
theorem test_raised_interrupt :
    (raiseInterrupt false 0xFF#8 beforeEntry).cpu.pc = 0x0038#16 ∧
    (raiseInterrupt false 0xFF#8 beforeEntry).tTotal = beforeEntry.tTotal + 13 := by decide +kernel

/-- A bank-switch rule that no table lists is refused (log 32). -/
theorem test_unattached_rule :
    { Config.standard with bankRule := some ⟨[0x7FFD#16], .clauses []⟩ }.check = some .bankRuleNotAttached := by
  decide +kernel

/-! ### Witnesses: states and operands that meet the hypotheses of the statements -/

/-- A machine with a ROM bank, two RAM banks, an UNMAPPED bank, a bank-switch rule, port handlers, both sources of
maskable interrupts and a ULA. -/
def demo : Config :=
  { Config.standard with
    slots := [⟨0, 16⟩, ⟨16, 65520⟩]
    banks := [⟨16, .rom, 0x00#8, [0], some (List.replicate 16 0x00#8)⟩, ⟨65520, .ram, 0x00#8, [1], none⟩,
      ⟨16, .ram, 0xAA#8, [0], none⟩, ⟨16, .unmapped, 0xFF#8, [0], none⟩]
    initSlot := [0, 1]
    bankRule := some ⟨[0x7FFD#16], .clauses [.arithOffset 0x03#8 0 0 0]⟩
    readSpecific := [(0x0001#16, .constant 0x55#8)]
    writeSpecific := [(0x7FFD#16, .bankRule)]
    readGeneric := [.constant 0xA5#8, .constant 0xF0#8]
    writeGeneric := [.record]
    intPeriodT := 64
    rIntBit := some 6
    ulaVariant := .bufferReplay
    tVsyncMin := 10
    displayBase := 0x4000#16
    displayLen := 4
    loadAvgN := 2 }

/-- A machine of that configuration with one byte of RAM listed and a stack. -/
def demoState : State := base demo |> poke true 0x9000#16 0x5A#8 |> hostSet16 .sp 0xC000#16

/-- As `demoState`, in the standard configuration, `PC` on the bytes given. -/
def plain (bytes : List Byte) : State :=
  base Config.standard |> poke true 0x9000#16 0x5A#8 |> hostSet16 .sp 0xC000#16 |> placed 0x8000#16 bytes

/-- The state one iteration's machine step leaves. -/
def iterated (s : State) : Option State :=
  match machineStep (clearHit s) with
  | .next t => some t
  | .fault _ => none
  | .refused _ => none

/-- The ULA state changed. -/
def withUla (f : Ula → Ula) (s : State) : State := { s with ula := f s.ula }

/-- The interrupt mode changed. -/
def withIm (mode : IntMode) (s : State) : State := { s with cpu := { s.cpu with im := mode } }

/-- What a call's instruction leaves, if it completes, has the property. -/
def ranTo (s : State) (p : State → Bool) : Bool :=
  let fetched := fetchInstr (beginCall s)
  match decode fetched.1 with
  | .ok (i, _) =>
    match exec i (setPC (s.cpu.pc + BitVec.ofNat 16 fetched.1.length) fetched.2) with
    | .next u => p u
    | .fault _ => false
    | .refused _ => false
  | .error _ => false

/-- `ranTo` finds the state of `Ran`. -/
theorem ran_of_ranTo {s : State} {p : State → Bool} (h : ranTo s p = true) : ∃ u, Ran s u ∧ p u = true := by
  simp only [ranTo] at h
  split at h
  case h_2 => cases h
  case h_1 i rest hdecode =>
    split at h
    case h_1 u hexec => exact ⟨u, ⟨i, rest, hdecode, hexec⟩, h⟩
    all_goals cases h

/-- `Accepts`, as a test. -/
def accepting (bus : Byte) (u : State) : Bool :=
  u.cpu.iff1 && !u.cpu.eiShadow && (u.cpu.im != .im0 || bus &&& 0xC7#8 == 0xC7#8)

theorem accepts_of_accepting {bus : Byte} {u : State} (h : accepting bus u = true) : Accepts bus u := by
  simp only [accepting, Bool.and_eq_true, Bool.not_eq_true', Bool.or_eq_true, bne_iff_ne, beq_iff_eq] at h
  exact ⟨h.1.1, h.1.2, fun him => h.2.resolve_left (absurd him)⟩

theorem demoState_inv : Inv demoState where
  config := by decide +kernel
  slots := by decide +kernel
  memory := by decide +kernel
  watchRead := by decide +kernel
  watchWrite := by decide +kernel
  activity := by decide +kernel
  coverage := by decide +kernel
  countdown := by decide +kernel
  loadCount := by decide +kernel

/-- The invariant speaks of the countdown alone of the CPU, and of nothing of the ULA. -/
theorem inv_of_countdown {s : State} (h : Inv s) (cpu : Cpu) (ula : Ula)
    (countdown : s.cfg.intPeriodT = 0 ∨ (0 < cpu.intCountdown ∧ cpu.intCountdown ≤ s.cfg.intPeriodT)) :
    Inv { s with cpu := cpu, ula := ula } :=
  ⟨h.config, h.slots, h.memory, h.watchRead, h.watchWrite, h.activity, h.coverage, countdown, h.loadCount⟩

theorem witness_ResetState : ∃ bank, demo.banks[3]? = some bank ∧ demo.banks[0]?.isSome = true ∧ 65535 < 65536 :=
  ⟨_, rfl, rfl, by decide⟩

theorem witness_InvariantAtReset : demo.check = none ∧ Config.standard.check = none := by decide +kernel

theorem witness_InvariantKept : Inv demoState ∧ UlaClock demoState ∧ demoState.ula.pendingChar = none ∧
    isNext (step demoState) = true :=
  ⟨demoState_inv, ⟨by decide, .inr (.inr (by decide))⟩, by decide +kernel⟩

theorem witness_DecodeOfEncode : (Instr.setBAtIY 7 0x80#8).wf = true ∧ (Instr.rst 0x0038#16).wf = true ∧
    (Instr.rst 0x0000#16).wf = true := by decide

theorem witness_EncodeOfDecode :
    decode [0xFD#8, 0xCB#8, 0x80#8, 0xFE#8, 0x01#8] = .ok (.setBAtIY 7 0x80#8, [0x01#8]) := by decide +kernel

/-- An instruction that wraps past 0xFFFF, with and without a ULA. -/
theorem witness_StepRunsDecoded : ∀ cfg ∈ [Config.standard, { Config.standard with ulaVariant := .bufferReplay }],
    let s := placed 0xFFFE#16 [0xFD#8, 0xCB#8, 0x80#8, 0xFE#8] (base cfg)
    s.fault = none ∧ intercepts s s.cpu.pc = false ∧
      decode (readBlock s s.cpu.pc 4) = .ok (.setBAtIY 7 0x80#8, []) := by decide +kernel

theorem witness_PlainStepIsTheInstruction :
    let s := plain [0x12#8, 0x00#8, 0x00#8, 0x00#8]
    s.fault = none ∧ (s.cfg.ulaVariant = .none ∧ s.cfg.intPeriodT = 0 ∧ s.cfg.rIntBit = none ∧
      s.cpu.intDeferred = false) ∧
      decode (readBlock s s.cpu.pc 4) = .ok (.ldAtDEA, [0x00#8, 0x00#8, 0x00#8]) ∧
      isNext (exec .ldAtDEA (afterFetch 1 (m1Fetches (peek s s.cpu.pc)) { s with failure := none })) = true := by
  decide +kernel

theorem witness_UnknownEncodingStops :
    let s := plain [0xDD#8, 0xCB#8, 0x05#8, 0x00#8]
    s.fault = none ∧ intercepts s s.cpu.pc = false ∧
      decode (readBlock s s.cpu.pc 4) = .error (.unknownEncoding [0xDD#8, 0xCB#8, 0x05#8,
        0x00#8]) := by decide +kernel

/-- The cheapest and the dearest instruction; a call with no fault; a step. -/
theorem witness_CostBounds :
    isNext (exec .nop demoState) = true ∧ isNext (exec .exAtSPIX demoState) = true ∧ demoState.fault = none ∧
      (runCalls 1 demoState).isSome = true ∧ isNext (step demoState) = true := by decide +kernel

theorem witness_RegisterOwnership : isNext (exec .exx demoState) = true := by decide +kernel

theorem witness_RomImmutable : Inv demoState ∧ isNext (step demoState) = true ∧
    ∃ bank, demoState.cfg.banks[0]? = some bank ∧ bank.kind ≠ .ram ∧ (65535 : Nat) < 65536 :=
  ⟨demoState_inv, by decide +kernel, _, rfl, by decide, by decide⟩

/-- Memory in canonical form, with a byte listed. -/
theorem demoState_wf : Memory.wf demoState.cfg demoState.mem = true ∧ demoState.mem ≠ [] := by decide +kernel

theorem witness_ByteStores : Memory.wf demoState.cfg demoState.mem = true := demoState_wf.1

theorem witness_WordStores : Memory.wf demoState.cfg demoState.mem = true := demoState_wf.1

theorem witness_Pushes : Memory.wf demoState.cfg demoState.mem = true := demoState_wf.1

theorem witness_StackExchanges : Memory.wf demoState.cfg demoState.mem = true := demoState_wf.1

theorem witness_BlockTransfers : Memory.wf demoState.cfg demoState.mem = true := demoState_wf.1

theorem witness_IncrementDecrementByte : Memory.wf demoState.cfg demoState.mem = true := demoState_wf.1

theorem witness_RotatesAndShifts : Memory.wf demoState.cfg demoState.mem = true := demoState_wf.1

theorem witness_DigitRotates : Memory.wf demoState.cfg demoState.mem = true := demoState_wf.1

theorem witness_BlockInputs : Memory.wf demoState.cfg demoState.mem = true := demoState_wf.1

/-- `POP AF` and the other pops. -/
theorem witness_Pops : pairOf16AF .af = HostReg16.af ∧ pairOf16AF .bc ≠ HostReg16.af ∧ HostReg16.ix ≠ .af := by decide

theorem witness_DecimalArithmetic : 99 < 100 ∧ (hostSet8 .a 0x99#8 demoState).cpu.a = bcd 99 ∧
    (hostSet8 .a 0x00#8 demoState).cpu.a = bcd 0 := by decide +kernel

theorem witness_BitTestSetReset : 7 < 8 ∧ 0 < 8 ∧ Memory.wf demoState.cfg demoState.mem = true := by decide +kernel

/-- A condition that holds and one that does not. -/
theorem witness_Calls : condHolds demoState .nz = true ∧ condHolds demoState .z = false ∧
    Memory.wf demoState.cfg demoState.mem = true := by decide +kernel

/-- A condition that holds and one that does not. -/
theorem witness_Returns : condHolds demoState .po = true ∧ condHolds demoState .pe = false := by decide +kernel

/-- A write that leaves the slot table as it was. -/
theorem witness_Outputs : ∀ i ∈ [Instr.outNA 0xFE#8, .outCR .e, .outi, .otdr], (match exec i demoState with
    | .next t => decide (t.slots = demoState.slots)
    | .fault _ => false
    | .refused _ => false) = true := by decide +kernel

/-- A port with a specific handler, one with generic ones, one with none. -/
theorem witness_PortReads :
    (demo.readSpecific.filter (fun entry => entry.1 == 0x0001#16)).head? = some (0x0001#16, .constant 0x55#8) ∧
    (0xFFFF#16 ∉ Config.standard.readSpecific.map Prod.fst ∧ Config.standard.readGeneric = []) ∧
    0x0000#16 ∉ demo.readSpecific.map Prod.fst ∧ demo.readGeneric = [.constant 0xA5#8, .constant 0xF0#8] := by
  decide +kernel

/-- A port without handlers; a failure kept. -/
theorem witness_PortWrites :
    Config.standard.writeSpecific.filter (fun entry => entry.1 == 0x7FFD#16) = [] ∧
    Config.standard.writeGeneric = [] ∧
    ({ demoState with failure := some (.bankRuleTimeout 0x0000#16) } : State).failure =
      some (.bankRuleTimeout 0x0000#16) := by decide +kernel

/-- A RAM bank and an UNMAPPED one that may be assigned, at both ends of the slot; a bank that may not. -/
theorem witness_SetSlot : Inv demoState ∧
    (∃ place bank, demoState.cfg.slots[0]? = some place ∧ demoState.cfg.banks[2]? = some bank ∧ 0 ∈ bank.slots ∧
      place.base ≤ (0x0000#16).toNat ∧ (0x000F#16).toNat < place.base + place.size) ∧
    (∃ bank, demoState.cfg.banks[3]? = some bank ∧ 0 ∈ bank.slots ∧ bank.kind = .unmapped) ∧
    (∃ bank, demoState.cfg.banks[1]? = some bank ∧ 0 < demoState.cfg.slots.length ∧ 0 ∉ bank.slots) ∧
    demoState.cfg.banks[4]? = none :=
  ⟨demoState_inv, ⟨_, _, rfl, rfl, by decide⟩, ⟨_, rfl, by decide⟩, ⟨_, rfl, by decide⟩, rfl⟩

/-- A bound and an unbound port; a value whose assignment is allowed and one whose assignment is not. -/
theorem witness_BankRuleAllOrNothing : ∃ rule, demoState.cfg.bankRule = some rule ∧
    0x7FFC#16 ∉ rule.ports ∧ 0x7FFD#16 ∈ rule.ports ∧
    evalRule rule 0x7FFD#16 0x02#8 demoState.slots demoState.script = .ok [(0, 2)] [] ∧
    demoState.cfg.pairAllowed 0 2 = true ∧
    evalRule rule 0x7FFD#16 0x01#8 demoState.slots demoState.script = .ok [(0, 1)] [] ∧
    demoState.cfg.pairAllowed 0 1 = false :=
  ⟨_, rfl, by decide, by decide, by decide, by decide, by decide, by decide⟩

/-- Ranges that wrap, of one byte and of the whole space. -/
theorem witness_WatchpointOverlap : Inv demoState ∧ (0x0003#16 - 0xFFFE#16).toNat < 6 ∧ 6 ≤ 65536 ∧
    (0x0003#16 - 0x0004#16).toNat < 65536 ∧ 65536 ≤ 65536 := ⟨demoState_inv, by decide⟩

/-- Every mode, `halted` or not. -/
theorem witness_MaskableEntry : ∀ mode ∈ [IntMode.im0, .im1, .im2], ∀ halted ∈ [false, true],
    let s := withIm mode (withIff true false { demoState with cpu := { demoState.cpu with halted := halted } })
    Memory.wf s.cfg s.mem = true ∧ s.cpu.iff1 = true ∧ s.cpu.eiShadow = false ∧
      (s.cpu.im = .im0 → 0xFF#8 &&& 0xC7#8 = 0xC7#8) := by decide +kernel

theorem witness_MaskableRefused :
    (withIff false true demoState).cpu.iff1 = false ∧
    ({ demoState with cpu := { demoState.cpu with iff1 := true, eiShadow := true } } : State).cpu.eiShadow = true ∧
    (let s := withIff true true demoState
     s.cpu.iff1 = true ∧ s.cpu.eiShadow = false ∧ s.cpu.im = .im0 ∧ 0xBF#8 &&& 0xC7#8 ≠ 0xC7#8) := by decide +kernel

/-- `SP` = 0x0001: the two pushed bytes are at 0x0000 and 0xFFFF. -/
theorem witness_NmiEntryAndReturn :
    let s := hostSet16 .sp 0x0001#16 (plain [0x00#8])
    Memory.wf s.cfg s.mem = true ∧ writable s (s.cpu.sp - 1#16) = true ∧ writable s (s.cpu.sp - 2#16) = true ∧
      samePlace s (s.cpu.sp - 1#16) (s.cpu.sp - 2#16) = false := by decide +kernel

/-- `demoState` with that countdown, interrupts enabled or not, mode 1. -/
def counting (countdown : Nat) (enabled : Bool) : State :=
  let c := demoState.cpu
  { demoState with cpu := { c with intCountdown := countdown, iff1 := enabled, iff2 := enabled, im := .im1 } }

/-- Calls in which the countdown expires. A `NOP` that leaves a countdown of 1; one that leaves 0, with interrupts
enabled and disabled. -/
theorem witness_CountdownLaw :
    (Inv demoState ∧ demoState.fault = none ∧ demoState.cfg.intPeriodT ≠ 0 ∧
      (runCalls 17 demoState).isSome = true) ∧
    (∃ u, Inv (counting 5 true) ∧ Ran (counting 5 true) u ∧ 0 < (counting 5 true).cpu.intCountdown - u.tIns) ∧
    (∃ u, Inv (counting 4 true) ∧ Ran (counting 4 true) u ∧ (counting 4 true).cpu.intCountdown - u.tIns ≤ 0 ∧
      Accepts (counting 4 true).cfg.intBusByte u) ∧
    ∃ u, Inv (counting 4 false) ∧ Ran (counting 4 false) u ∧
      (counting 4 false).cpu.intCountdown - u.tIns ≤ 0 ∧ u.cpu.iff1 = false := by
  have period : demoState.cfg.intPeriodT = 64 := by decide +kernel
  have inv : ∀ n ≤ 64, 0 < n → ∀ enabled, Inv (counting n enabled) := fun n hn hpos _ =>
    inv_of_countdown demoState_inv _ demoState.ula
      (.inr ⟨Int.ofNat_lt.mpr hpos, by rw [period]; exact Int.ofNat_le.mpr hn⟩)
  refine ⟨⟨demoState_inv, by decide +kernel⟩, ?_, ?_, ?_⟩
  · obtain ⟨u, hran, hu⟩ := ran_of_ranTo (s := counting 5 true) (p := fun u => u.tIns == 4) (by decide +kernel)
    exact ⟨u, inv 5 (by decide) (by decide) true, hran, by rw [beq_iff_eq.mp hu]; decide⟩
  · obtain ⟨u, hran, hu⟩ := ran_of_ranTo (s := counting 4 true) (p := fun u => u.tIns == 4 && accepting 0xFF#8 u)
      (by decide +kernel)
    rw [Bool.and_eq_true] at hu
    exact ⟨u, inv 4 (by decide) (by decide) true, hran, by rw [beq_iff_eq.mp hu.1]; decide,
      accepts_of_accepting hu.2⟩
  · obtain ⟨u, hran, hu⟩ := ran_of_ranTo (s := counting 4 false) (p := fun u => u.tIns == 4 && !u.cpu.iff1)
      (by decide +kernel)
    rw [Bool.and_eq_true, Bool.not_eq_true'] at hu
    exact ⟨u, inv 4 (by decide) (by decide) false, hran, by rw [beq_iff_eq.mp hu.1]; decide, hu.2⟩

/-- `beforeEdge` with a deferred request, and a bus byte that is no restart opcode. -/
def deferred (bus : Byte) (mode : IntMode) : State :=
  withIm mode { beforeEdge with
    cfg := { beforeEdge.cfg with intBusByte := bus }
    cpu := { beforeEdge.cpu with intDeferred := true } }

/-- A request that is taken, one that faults, none; an edge of the configured bit, and no such bit. -/
theorem witness_RefreshEdge :
    (∀ s ∈ [deferred 0xFF#8 .im1, deferred 0xBF#8 .im0, beforeEdge, plain [0x00#8]],
      s.fault = none ∧ Memory.wf s.cfg s.mem = true ∧ ranTo s (fun _ => true) = true) ∧
    (∃ u, Ran (deferred 0xFF#8 .im1) u ∧ Accepts 0xFF#8 u) ∧
    ranTo (deferred 0xBF#8 .im0) (fun u => u.cpu.iff1 && !u.cpu.eiShadow && u.cpu.im == .im0) = true ∧
    0xBF#8 &&& 0xC7#8 ≠ 0xC7#8 ∧
    (beforeEdge.cpu.intDeferred = false ∧ beforeEdge.cfg.intPeriodT = 0) ∧
    (∀ s ∈ [deferred 0xFF#8 .im1, beforeEdge], s.cfg.rIntBit = some 6 ∧ (runCalls 1 s).isSome = true) ∧
    (plain [0x00#8]).cfg.rIntBit = none ∧ (runCalls 1 (plain [0x00#8])).isSome = true := by
  refine ⟨by decide +kernel, ?_, by decide +kernel⟩
  obtain ⟨u, hran, hu⟩ := ran_of_ranTo (s := deferred 0xFF#8 .im1) (p := accepting 0xFF#8) (by decide +kernel)
  exact ⟨u, hran, accepts_of_accepting hu⟩

/-- Three steps without a sync; a pulse one T-state too short; the first and the last `T` of one edge with the
generator on; one `T` before the edge. -/
theorem witness_HsyncLine :
    (demoState.cfg.ulaVariant = .bufferReplay ∧ demoState.ula.nmiOn = false ∧ demoState.ula.syncReq = false ∧
      demoState.ula.vsync = false ∧ demoState.ula.lineT < demoState.cfg.tScanline ∧
      (quietSteps 3 demoState).isSome = true) ∧
    (let s := withUla (fun u => { u with vsync := true, t := 100, vsyncStartT := 95 }) demoState
     s.ula.syncReq = false ∧ s.ula.vsync = true ∧ s.ula.t + 4 < s.ula.vsyncStartT + s.cfg.tVsyncMin) ∧
    let s := withUla (fun u => { u with nmiOn := true, t := 300, lineT := 200 }) demoState
    Inv s ∧ Memory.wf s.cfg s.mem = true ∧ (s.ula.lineT ≤ s.ula.t ∧ s.cfg.ulaVariant ≠ .none ∧ s.ula.nmiOn = true ∧
      s.cfg.tScanline = s.ula.lineT + 7 ∧ s.ula.lineT + 213 < 2 * s.cfg.tScanline) ∧
      s.ula.lineT + 6 < s.cfg.tScanline :=
  ⟨by decide +kernel, by decide +kernel, inv_of_countdown demoState_inv demoState.cpu _ demoState_inv.countdown,
    demoState_wf.1, by decide +kernel, by decide +kernel⟩

/-- A pulse of exactly the minimum length. -/
theorem witness_FrameOnlyByPulse :
    let s := withUla (fun u => { u with vsync := true, t := 101, vsyncStartT := 95 }) demoState
    (ulaStep 4 s).2.ula.frame ≠ s.ula.frame ∧ (ulaStep 4 s).2.notices ≠ s.notices ∧
      s.cfg.ulaVariant = .bufferReplay ∧ s.ula.nmiOn = false ∧ s.ula.syncReq = false ∧ s.ula.vsync = true ∧
      s.ula.vsyncStartT + s.cfg.tVsyncMin = s.ula.t + 4 := by decide +kernel

/-- A bus-replay machine in a pulse, with the ULA's clock at `t`. -/
def replaying (t : Nat) : State :=
  base { Config.standard with ulaVariant := .busReplay, tVsyncMin := 10 } |>
    withUla (fun u => { u with vsync := true, t := t, lineT := 205, vsyncStartT := 95, scanRec := [0x01#8] })

/-- A bus-replay machine with a pulse of the minimum length, and one T-state shorter; both steps reach an edge. -/
theorem witness_FrameOnlyByPulse_busReplay : ∀ s ∈ [replaying 101, replaying 100],
    s.cfg.ulaVariant = .busReplay ∧ s.ula.pendingChar = none ∧ s.ula.syncReq = false ∧ s.ula.vsync = true ∧
      (s.ula.lineT + 4) / s.cfg.tScanline = 1 ∧
      (s.ula.vsyncStartT + s.cfg.tVsyncMin ≤ s.ula.t + 4 ↔ s.ula.t = 101) := by decide +kernel

/-- The first address of the upper half and the last of the lower; another variant; a byte that is no character. -/
theorem witness_BusReplayFetch :
    let cfg := { Config.standard with ulaVariant := .busReplay, charData := [0x41#8] }
    (∀ when ∈ [CharRead.atFetch, .inUlaStep],
      let s := placed 0x8000#16 [0x41#8] (base { cfg with charRead := when })
      s.cfg.charRead = when ∧ s.cfg.ulaVariant = .busReplay ∧ 0x8000 ≤ s.cpu.pc.toNat ∧
        peek s s.cpu.pc ∈ s.cfg.charData) ∧
    (let s := withUla (fun u => { u with pendingChar := some (0x8000#16, 0x41#8) }) (base cfg)
     s.cfg.ulaVariant = .busReplay ∧ s.ula.pendingChar = some (0x8000#16, 0x41#8)) ∧
    (placed 0x7FFF#16 [0x41#8] (base cfg)).cpu.pc.toNat < 0x8000 ∧ demoState.cfg.ulaVariant ≠ .busReplay ∧
    (let s := placed 0x8000#16 [0x42#8] (base cfg)
     peek s s.cpu.pc ∉ s.cfg.charData) := by decide +kernel

/-- A run that has begun, and an Idle state. -/
theorem witness_BatchIndependence : (beginContinue none none (plain [0x00#8])).dbg.loop ≠ .idle ∧
    (plain [0x00#8]).dbg.loop = .idle := by decide +kernel

/-- A machine step for each stop, in the order of the statement, and one that goes on. -/
theorem witness_DebugStops :
    let running := fun (s : State) => { s with dbg := { s.dbg with loop := .running } }
    let quiet := fun (t : State) => t.fault.isNone && t.failure.isNone && t.dbg.transient1.isNone &&
      t.dbg.transient2.isNone && t.dbg.breakpoints.isEmpty
    (iterated (plain [0xED#8, 0x00#8])).any (fun t => t.fault.isSome) = true ∧
    (iterated (demoState |> hostSet16 .bc 0x7FFD#16 |> hostSet8 .a 0x01#8 |> placed 0x8000#16 [0xED#8, 0x79#8])).any
      (fun t => t.fault.isNone && t.failure.isSome) = true ∧
    (∀ debug ∈ [{ Debug.reset with transient1 := some 0x8001#16 }, { Debug.reset with transient2 := some 0x8001#16 },
        { Debug.reset with breakpoints := [⟨0x8001#16, none, .stop⟩] }],
      (iterated { plain [0x00#8] with dbg := debug }).any (fun t => t.fault.isNone && t.failure.isNone &&
        (t.dbg.transient1 == some t.cpu.pc || t.dbg.transient2 == some t.cpu.pc ||
          t.dbg.breakpoints.contains ⟨t.cpu.pc, none, .stop⟩)) = true) ∧
    (iterated (setWatchpoint 0x8000#16 1 true false (plain [0x00#8]))).any
      (fun t => quiet t && t.watch.hit == some (0x8000#16, .read)) = true ∧
    (iterated (setWatchpoint 0x0000#16 1 false true (plain [0x12#8]))).any
      (fun t => quiet t && t.watch.hit == some (0x0000#16, .write)) = true ∧
    (iterated { plain [0x00#8] with dbg := { Debug.reset with
        transient1 := some 0x9000#16, breakpoints := [⟨0x8001#16, none, .logOnly "A"⟩] } }).any (fun t =>
      t.fault.isNone && t.failure.isNone && t.dbg.transient1 != some t.cpu.pc && t.dbg.transient2.isNone &&
        t.dbg.breakpoints == [⟨t.cpu.pc, none, .logOnly "A"⟩]) = true ∧
    (iterated { plain [0x00#8] with dbg := { Debug.reset with pauseReq := true } }).any
      (fun t => quiet t && t.watch.hit.isNone && t.dbg.pauseReq) = true ∧
    (iterated (running (plain [0x00#8]))).any
      (fun t => quiet t && t.watch.hit.isNone && !t.dbg.pauseReq && decide (t.dbg.loop = .running)) = true := by
  decide +kernel

/-- A step-out at a `RET`. -/
def steppingOut (sp0 : Word) : State :=
  { plain [0xC9#8] with dbg := { Debug.reset with loop := .steppingOut, sp0 := sp0 } }

/-- The machine step runs a `RET` that leaves `SP` at 0xC002, and no stop of R562 items (3) to (7) holds. -/
def returnsQuietly (s : State) : Bool :=
  decide (decode (fetchInstr (beginCall (clearHit s))).1 = .ok (.ret, [])) &&
    (iterated s).any (fun t => t.fault.isNone && t.failure.isNone && t.dbg.transient1.isNone &&
      t.dbg.transient2.isNone && t.dbg.breakpoints.isEmpty && t.watch.hit.isNone && !t.dbg.pauseReq &&
      t.dbg.loop == .steppingOut && t.dbg.sp0 == s.dbg.sp0 && t.cpu.sp == 0xC002#16)

/-- A step-out whose `RET` raises `SP` past `sp0`. -/
theorem witness_DebugStops_stepOut : returnsQuietly (steppingOut 0xC000#16) = true := by decide +kernel

/-- A step-out whose `RET` reaches `sp0` only. -/
theorem witness_DebugStops_stepOut_goesOn : returnsQuietly (steppingOut 0xC002#16) = true := by decide +kernel

/-- Two states with one program view and different debug state, both stepping. -/
theorem witness_DebugNoninterference :
    let s := plain [0x12#8]
    let s' := { setWatchpoint 0x0000#16 16 true true s with
      dbg := { Debug.reset with loop := .running, pauseReq := true, breakpoints := [⟨0x8000#16, none, .stop⟩] }
      coverage := [0x1234#16], tTotal := 7 }
    s.fault = none ∧ s'.fault = none ∧ programView s = programView s' ∧ s ≠ s' ∧ isNext (step s) = true ∧
      s.cfg.colorMode = false ∧ s.ula = s'.ula := by
  decide +kernel

/-- A snapshot of a machine of the same configuration, and one of another. -/
theorem witness_SnapshotRoundTrip :
    demoState.dbg.loop = .idle ∧ (base demo).cfg = demoState.cfg ∧
    demoState.slots.length = demoState.cfg.slots.length ∧
    (save (plain [0x00#8])).shape ≠ demoState.cfg.slots.length :: demoState.cfg.banks.map Bank.size := by
  decide +kernel

end Sys2Proof.Tests
end

section
/-! PROOFS. The invariant right after reset (00_scope.md R9, 10_state.md R64, 70_reset_and_hazards.md R601). -/

namespace Sys2Proof.Machine

variable {cfg : Config}

/-- The bounds of an accepted configuration that the invariant reads (00_scope.md R9): the first error of `check` is
none only where every one of its tests has passed. -/
theorem bounds_of_check (h : cfg.check = none) :
    cfg.tableAllowed cfg.initSlot = true ∧ (cfg.intPeriodT = 0 ∨ 64 ≤ cfg.intPeriodT) ∧
      (cfg.ulaVariant = .none ∨ 0 < cfg.tScanline) ∧ 0 < cfg.loadAvgN := by
  simp only [Config.check] at h
  repeat (split at h; · contradiction)
  next hslots _ _ _ _ _ _ hperiod _ hscanline hload _ _ =>
  simp only [Bool.and_eq_true, Bool.or_eq_true, bne_iff_ne, beq_iff_eq, decide_eq_true_eq] at hperiod hscanline hload
  refine ⟨by simpa using hslots, by omega, ?_, by omega⟩
  by_cases hula : cfg.ulaVariant = .none
  · exact .inl hula
  · exact .inr (Nat.pos_of_ne_zero fun hzero => hscanline ⟨hula, .inl hzero⟩)

/-- Construction answers the reset machine of every configuration it does not refuse (70_reset_and_hazards.md R601). -/
theorem construct_of_check (launch : Launch) (h : cfg.check = none) :
    State.construct cfg launch = .ok (State.resetWith cfg launch) := by
  simp [State.construct, h]

/-- Reset empties the tables of an accepted configuration, and starts its slots, countdown and load window at values
that `check` bounds. -/
theorem resetWith_inv (launch : Launch) (h : cfg.check = none) : Inv (State.resetWith cfg launch) := by
  obtain ⟨hslots, hperiod, -, hload⟩ := bounds_of_check h
  have hcountdown : (State.resetWith cfg launch).cpu.intCountdown = cfg.intPeriodT := rfl
  exact
    { config := h
      slots := hslots
      memory := reset_memory_wf cfg launch
      watchRead := rfl
      watchWrite := rfl
      activity := rfl
      coverage := .nil
      countdown := hperiod.imp_right fun hlong => by
        rw [hcountdown]; exact ⟨by omega, Int.le_refl _⟩
      loadCount := hload }

/-- Reset sets `line_t` and `ula.t` to 0 (10_state.md R64), below the scanline length that `check` keeps positive. -/
theorem resetWith_ulaClock (launch : Launch) (h : cfg.check = none) : UlaClock (State.resetWith cfg launch) := by
  obtain ⟨-, -, hscanline, -⟩ := bounds_of_check h
  exact ⟨Nat.le_refl 0, hscanline.imp_right .inr⟩

/-- The configuration of the model's own reset machine (log 1) is accepted. -/
theorem standard_check : Config.standard.check = none := by decide

/-- Settles O2: `check` bounds what the invariant reads at reset, and the model's own reset machine is the one of the
standard configuration, which is accepted. -/
theorem invariantAtReset : Obligations.InvariantAtReset :=
  ⟨fun _ launch h =>
      ⟨construct_of_check launch h, resetWith_inv launch h, resetWith_ulaClock launch h, rfl⟩,
    resetWith_inv Launch.zero standard_check, resetWith_ulaClock Launch.zero standard_check, rfl⟩

end Sys2Proof.Machine
end

section
/-! PROOFS. The T-states of one instruction (70_reset_and_hazards.md R622). -/

namespace Sys2Proof.Machine

variable {s : State}

/-- The cost of an instruction is in its range (70_reset_and_hazards.md R622). -/
def CostInRange (s : State) : Prop := 4 ≤ s.tIns ∧ s.tIns ≤ 23

theorem done_costInRange {n : Nat} (hlow : 4 ≤ n) (hhigh : n ≤ 23) (s : State) : Next CostInRange (done n s) :=
  ⟨_, rfl, hlow, hhigh⟩

theorem Next.ite {P : State → Prop} (c : Prop) [Decidable c] {q r : Result} (hq : Next P q) (hr : Next P r) :
    Next P (if c then q else r) := by
  split
  · exact hq
  · exact hr

/-- Every instruction costs 4 to 23 T-states: most have one cost, and the repeating and conditional ones one for each
of their two ends. -/
theorem exec_costInRange (i : Instr) (s : State) : Next CostInRange (exec i s) := by
  cases i
  case ldir | lddr | cpir | cpdr | inir | indr | otir | otdr | jrC | jrNC | jrZ | jrNZ | djnz | callCCNN | retCC =>
    exact Next.ite _ (done_costInRange (by decide) (by decide) _) (done_costInRange (by decide) (by decide) _)
  all_goals exact done_costInRange (by decide) (by decide) _

end Sys2Proof.Machine
end

section
/-! PROOFS. What a call of `ExecuteOne` and a machine step keep, said once: a property kept by everything an
instruction is made of and by the bookkeeping around it is kept by a call, and by a step (60_exceptions.md R530,
R540). -/

namespace Sys2Proof.Machine

variable {s t : State} {P : State → Prop}

/-! ### A call of `ExecuteOne` -/

/-- What a property of a whole call may read of a state. The bookkeeping of a call writes none of it but by
`markExecuted`, `ulaIntercept`, `countdownEntry` and `loadAccount`. -/
structure Records where
  cfg         : Config
  mem         : Memory
  slots       : List Nat
  watch       : Watch
  activity    : List (Nat × Marks)
  coverage    : List Word
  load        : Load
  countdown   : Int
  ulaT        : Nat
  lineT       : Nat
  pendingChar : Option (Word × Byte)

/-- The records of a state. -/
def records (s : State) : Records :=
  ⟨s.cfg, s.mem, s.slots, s.watch, s.activity, s.coverage, s.load, s.cpu.intCountdown, s.ula.t, s.ula.lineT,
    s.ula.pendingChar⟩

/-- A property of states kept by everything a call of `ExecuteOne` that ends in no fault is made of. The call presents
at most 42 T-states to the countdown: an instruction and a deferred entry. -/
structure CallClosed (P : State → Prop) : Prop extends Closed P where
  bookkeeping : ∀ {s t}, P s → records t = records s → P t
  executed : ∀ {s} (a : Word), P s → P { s with activity := markExecuted a s.activity }
  intercept : ∀ {s} (pc0 : Word) (b : Byte), s.cfg.ulaVariant = .busReplay → P s → P (ulaIntercept pc0 b s).2
  countdown : ∀ {s} (n : Nat), n ≤ 42 → (countdownEntry n s).2.fault = none → P s → P (countdownEntry n s).2
  account : ∀ {s} (idle : Bool) (tIns tInt nAcc : Nat), P s → P (loadAccount idle tIns tInt nAcc s)

theorem intercepts_busReplay {a : Word} (h : intercepts s a = true) : s.cfg.ulaVariant = .busReplay := by
  simp only [intercepts, Bool.and_eq_true, beq_iff_eq] at h
  exact h.1

/-- An interrupt that leaves no fault has set none. -/
theorem generateInterrupt_fault {nmi : Bool} {bus : Byte} (hf : (generateInterrupt nmi bus s).2.fault = none) :
    (generateInterrupt nmi bus s).2.fault = s.fault := by
  have henter (nmi : Bool) : (enterInterrupt nmi bus s).2.fault = s.fault :=
    congrArg Fixed.fault ((fixed_closed (fixed s)).enterInterrupt rfl nmi bus)
  revert hf
  unfold generateInterrupt
  repeat' split
  · exact fun _ => henter true
  · exact fun _ => rfl
  · exact fun hf => nomatch hf
  · exact fun _ => henter false

@[simp] theorem deferredEntry_false (s : State) : deferredEntry false s = (0, s) := rfl

@[simp] theorem deferredEntry_true (s : State) :
    deferredEntry true s = generateInterrupt false s.cfg.intBusByte s := rfl

theorem deferredEntry_cost (fire : Bool) (s : State) : (deferredEntry fire s).1 ≤ 19 := by
  cases fire
  · simp
  · simpa using generateInterrupt_cost false _ s

namespace CallClosed

variable (h : CallClosed P)
include h

theorem fetchFirst (hs : P s) : P (fetchFirst s).2 := by
  have hread := h.executed s.cpu.pc (h.read8 hs s.cpu.pc)
  simp only [Machine.fetchFirst]
  split
  · exact h.intercept _ _ (intercepts_busReplay ‹_›) hread
  · exact hread

theorem fetchBytes (hs : P s) (a : Word) (n : Nat) : P (fetchBytes a n s).2 := by
  induction n generalizing a s with
  | zero => exact hs
  | succ n ih => exact ih (h.read8 hs a) _

theorem fetchPrefixed (hs : P s) (pc0 : Word) (b1 : Byte) : P (fetchPrefixed pc0 b1 s).2 :=
  h.fetchBytes (h.incR (h.read8 hs _)) _ _

theorem fetchInstr (hs : P s) : P (fetchInstr s).2 := by
  have hfirst := h.incR (h.fetchFirst hs)
  simp only [Machine.fetchInstr]
  split
  · exact h.fetchBytes hfirst _ _
  all_goals exact h.fetchPrefixed hfirst _ _

theorem deferredEntry (hs : P s) (fire : Bool) (hf : (deferredEntry fire s).2.fault = none) :
    P (deferredEntry fire s).2 := by
  cases fire
  · exact hs
  · rw [deferredEntry_true] at hf ⊢
    exact h.generateInterrupt hs _ _ (generateInterrupt_fault hf)

/-- `EdgeDetect()` writes the deferred request and the edge detector's copy of `R`, which no property reads. -/
theorem edgeDetect (hs : P s) : P (edgeDetect s) := by
  refine h.bookkeeping hs ?_
  unfold Machine.edgeDetect
  split <;> rfl

end CallClosed

/-! ### The end of a call -/

/-- An entry leaves the T-states of the instruction and the ULA as they are. -/
theorem enterInterrupt_timing (nmi : Bool) (bus : Byte) (s : State) :
    (enterInterrupt nmi bus s).2.tIns = s.tIns ∧ (enterInterrupt nmi bus s).2.ula = s.ula := by
  have hhalt : (leaveHalt s).tIns = s.tIns ∧ (leaveHalt s).ula = s.ula := by
    unfold leaveHalt
    split <;> exact ⟨rfl, rfl⟩
  have hsave : (saveReturn nmi s).tIns = s.tIns ∧ (saveReturn nmi s).ula = s.ula := by
    simp [saveReturn, pushWord, hhalt]
  unfold enterInterrupt
  dsimp only
  repeat' split
  all_goals simp [memRead16, hsave]

theorem generateInterrupt_tIns (nmi : Bool) (bus : Byte) (s : State) :
    (generateInterrupt nmi bus s).2.tIns = s.tIns := by
  unfold generateInterrupt
  repeat' split
  · exact (enterInterrupt_timing _ _ _).1
  · rfl
  · rfl
  · exact (enterInterrupt_timing _ _ _).1

theorem deferredEntry_tIns (fire : Bool) (s : State) : (deferredEntry fire s).2.tIns = s.tIns := by
  cases fire
  · rfl
  · rw [deferredEntry_true]
    exact generateInterrupt_tIns _ _ _

@[simp] theorem edgeDetect_tIns (s : State) : (edgeDetect s).tIns = s.tIns := by
  unfold edgeDetect
  split <;> rfl

@[simp] theorem loadAccount_tIns (idle : Bool) (tIns tInt nAcc : Nat) (s : State) :
    (loadAccount idle tIns tInt nAcc s).tIns = s.tIns := by
  unfold loadAccount
  dsimp only
  split <;> rfl

/-- Where a call ends in no fault, neither of its entries made one, and all of its parts ran. -/
theorem finishCall_of_no_fault {fire : Bool} (hf : (finishCall fire s).fault = none) :
    ∃ x u y v, deferredEntry fire s = (x, u) ∧ u.fault = none ∧
      countdownEntry (s.tIns + x) (edgeDetect u) = (y, v) ∧ v.fault = none ∧
      finishCall fire s =
        { loadAccount s.cpu.halted v.tIns (x + y) (accepted x + accepted y) v with tCall := v.tIns + x + y } := by
  rcases hd : deferredEntry fire s with ⟨x, u⟩
  have htIns : u.tIns = s.tIns := by simpa [hd] using deferredEntry_tIns fire s
  rcases hc : countdownEntry (s.tIns + x) (edgeDetect u) with ⟨y, v⟩
  simp only [finishCall, hd, edgeDetect_tIns, htIns, hc] at hf ⊢
  by_cases hu : u.fault.isSome = true
  · simp [hu] at hf; simp [hf] at hu
  · by_cases hv : v.fault.isSome = true
    · simp [hu, hv] at hf; simp [hf] at hv
    · exact ⟨x, u, y, v, rfl, by simpa using hu, hc, by simpa using hv, by simp [hu, hv]⟩

theorem CallClosed.finishCall (h : CallClosed P) (hs : P s) (hcost : s.tIns ≤ 23) (fire : Bool)
    (hf : (finishCall fire s).fault = none) : P (finishCall fire s) := by
  obtain ⟨x, u, y, v, hd, hu, hc, hv, heq⟩ := finishCall_of_no_fault hf
  have hPu : P u := by simpa [hd] using h.deferredEntry hs fire (by rw [hd]; exact hu)
  have hx : x ≤ 19 := by simpa [hd] using deferredEntry_cost fire s
  have hPv : P v := by
    have := h.countdown (s.tIns + x) (by omega) (by rw [hc]; exact hv) (h.edgeDetect hPu)
    rwa [hc] at this
  rw [heq]
  exact h.bookkeeping (h.account _ _ _ _ hPv) rfl

/-- A call of `ExecuteOne` that ends in no fault is a fetch, an instruction and the end of the call. -/
theorem executeOne_of_no_fault (h : executeOne s = .next t) (hf : t.fault = none) :
    ∃ u, Ran s u ∧ t = finishCall s.cpu.intDeferred u := by
  simp only [executeOne] at h
  split at h
  · cases h; cases hf
  · next i rest hdecode =>
    obtain ⟨u, hu⟩ := exec_next i (setPC ((fetchInstr (beginCall s)).2.pc0 +
      BitVec.ofNat 16 (fetchInstr (beginCall s)).1.length) (fetchInstr (beginCall s)).2)
    rw [hu] at h
    have hpc0 : (fetchInstr (beginCall s)).2.pc0 = s.cpu.pc := by rw [fetchInstr_fetchOnly (beginCall s)]; rfl
    rw [hpc0] at hu
    cases h
    exact ⟨u, ⟨i, rest, hdecode, hu⟩, rfl⟩

/-- What an instruction leaves has the property, and has its cost. -/
theorem CallClosed.ran (h : CallClosed P) (hs : P s) (hr : Ran s t) : P t ∧ CostInRange t := by
  obtain ⟨i, rest, -, hexec⟩ := hr
  have hfetched := h.setPC (h.fetchInstr (h.bookkeeping (t := beginCall s) hs rfl))
  constructor
  · obtain ⟨u, hu, hP⟩ := exec_closed h.toClosed (hfetched _) i
    cases hexec.symm.trans hu
    exact hP
  · obtain ⟨u, hu, hcost⟩ := exec_costInRange i _
    cases hexec.symm.trans hu
    exact hcost

/-- A call of `ExecuteOne` that ends in no fault keeps every property closed under its parts. -/
theorem CallClosed.executeOne (h : CallClosed P) (hs : P s) (he : executeOne s = .next t) (hf : t.fault = none) :
    P t := by
  obtain ⟨u, hran, rfl⟩ := executeOne_of_no_fault he hf
  obtain ⟨hu, -, hcost⟩ := h.ran hs hran
  exact h.finishCall hu hcost _ hf

/-! ### A machine step -/

/-- Where a step answers a next state, its call ended in no fault, and the ULA, the accounting and the coverage
followed. -/
theorem step_of_next (h : step s = .next t) : t.fault = none ∧
    ∃ u, executeOne { s with failure := none } = .next u ∧ u.fault = none ∧ t = finishStep u := by
  unfold step at h
  split at h
  · cases h
  · split at h
    · next u hm =>
      have ht : t.fault = none ∧ t = u := by
        unfold outcome at h
        split at h
        · cases h
        · cases h; exact ⟨‹_›, rfl⟩
      obtain ⟨hf, rfl⟩ := ht
      refine ⟨hf, ?_⟩
      unfold machineStep at hm
      split at hm
      · next v hv =>
        cases hm
        refine ⟨v, hv, ?_, rfl⟩
        by_contra hvf
        have hsome : v.fault.isSome = true := Option.isSome_iff_ne_none.mpr hvf
        rw [finishStep, if_pos hsome] at hf
        exact hvf hf
      · cases hm
      · cases hm
    · cases h
    · cases h

theorem finishStep_of_no_fault (h : s.fault = none) : finishStep s =
    addCoverage (ulaStep s.tCall s).2.pc0
      { (ulaStep s.tCall s).2 with
        tTotal := (ulaStep s.tCall s).2.tTotal + (ulaStep s.tCall s).2.tCall + (ulaStep s.tCall s).1 } := by
  simp [finishStep, h]

/-- A property of states kept by everything a machine step that answers a next state is made of: the ULA writes its own
fields and the notifications, and enters non-maskable interrupts. -/
structure StepClosed (P : State → Prop) : Prop extends CallClosed P where
  display : ∀ {s} (ula : Ula) (notices : List Notice), P s → P { s with ula := ula, notices := notices }
  cover : ∀ {s} (a : Word), P s → P (addCoverage a s)

theorem frameComplete_only (s : State) : let t := frameComplete s
    t = { s with ula := t.ula, notices := t.notices } := by
  unfold frameComplete
  split <;> rfl

theorem vsyncTrack_only (s : State) : let t := vsyncTrack s
    t = { s with ula := t.ula, notices := t.notices } := by
  unfold vsyncTrack
  dsimp only
  repeat' split
  · rfl
  · exact frameComplete_only _
  · rfl
  · rfl

theorem showPending_display (s : State) : let t := showPending s
    t = { s with ula := t.ula, notices := t.notices } := by
  unfold showPending
  split <;> rfl

theorem endOfLine_only (s : State) : let t := endOfLine s
    t = { s with ula := t.ula, notices := t.notices } := by
  unfold endOfLine
  split <;> rfl

namespace StepClosed

variable (h : StepClosed P)
include h

theorem of_only (hs : P s) (ht : t = { s with ula := t.ula, notices := t.notices }) : P t := by
  rw [ht]
  exact h.display _ _ hs

theorem hsyncActions (hs : P s) : P (hsyncActions s).2 := by
  unfold Machine.hsyncActions
  split
  · exact h.enterInterrupt hs true 0x00#8
  · exact hs

theorem hsyncEdge (hs : P s) : P (hsyncEdge s).2 :=
  h.hsyncActions (h.of_only (h.of_only hs rfl) (endOfLine_only _))

theorem hsyncEdges (hs : P s) (n : Nat) : P (hsyncEdges n s).2 := by
  induction n generalizing s with
  | zero => exact hs
  | succ n ih => exact ih (h.hsyncEdge hs)

theorem advanceUla (hs : P s) (n : Nat) : P (advanceUla n s).2 :=
  h.of_only (h.of_only (h.hsyncEdges (h.of_only hs rfl) _) (vsyncTrack_only _)) rfl

theorem ulaStep (hs : P s) (n : Nat) : P (ulaStep n s).2 := by
  unfold Machine.ulaStep
  split
  · exact hs
  · exact h.advanceUla hs n
  · exact h.advanceUla (h.of_only hs (showPending_display s)) n

/-- A machine step that answers a next state keeps every property closed under its parts. -/
theorem step (hs : P s) (ht : step s = .next t) : P t := by
  obtain ⟨-, u, hcall, hu, rfl⟩ := step_of_next ht
  have hPu := h.executeOne (h.bookkeeping (t := { s with failure := none }) hs rfl) hcall hu
  rw [finishStep_of_no_fault hu]
  exact h.cover _ (h.bookkeeping (h.ulaStep hPu _) rfl)

end StepClosed

end Sys2Proof.Machine
end

section
/-! PROOFS. A machine step keeps the invariant of a state and the scanline clock (10_state.md R49, R58; 60_exceptions.md
R530, R533, R547). -/

namespace Sys2Proof.Machine

variable {s t : State}

/-! ### The countdown -/

/-- The three ends of the periodic countdown: there is none, it goes on, or it starts again and presents its request
(60_exceptions.md R530, R533). -/
theorem countdownEntry_cases (n : Nat) (s : State) :
    (s.cfg.intPeriodT = 0 ∧ countdownEntry n s = (0, s)) ∨
    (s.cfg.intPeriodT ≠ 0 ∧ 0 < s.cpu.intCountdown - n ∧
      countdownEntry n s = (0, setCountdown (s.cpu.intCountdown - n) s)) ∨
    (s.cfg.intPeriodT ≠ 0 ∧ s.cpu.intCountdown - n ≤ 0 ∧
      ∃ u x v, u = setCountdown (s.cpu.intCountdown - n + s.cfg.intPeriodT) s ∧
        generateInterrupt false s.cfg.intBusByte u = (x, v) ∧
        countdownEntry n s = (x, setCountdown (v.cpu.intCountdown - x) v)) := by
  unfold countdownEntry
  dsimp only
  split
  · exact .inl ⟨‹_›, rfl⟩
  · split
    · exact .inr (.inr ⟨‹_›, ‹_›, _, _, _, rfl, rfl, rfl⟩)
    · exact .inr (.inl ⟨‹_›, by omega, rfl⟩)

/-- A countdown that an entry follows keeps what setting it and the entry keep. -/
theorem Closed.countdownEntry {P : State → Prop} (h : Closed P) (hset : ∀ {s} (v : Int), P s → P (setCountdown v s))
    (hs : P s) {n : Nat} (hf : (countdownEntry n s).2.fault = none) : P (countdownEntry n s).2 := by
  obtain ⟨-, heq⟩ | ⟨-, -, heq⟩ | ⟨-, -, u, x, v, rfl, hentry, heq⟩ := countdownEntry_cases n s <;> rw [heq] at hf ⊢
  · exact hs
  · exact hset _ hs
  · have hkept := generateInterrupt_fault (by rw [hentry]; exact hf)
    have hv := h.generateInterrupt (hset _ hs) _ _ hkept
    rw [hentry] at hv
    exact hset _ hv

/-! ### The invariant -/

/-- The invariant reads the records of a state alone. -/
theorem Inv.of_records (h : Inv s) (hr : records t = records s) : Inv t := by
  simp only [records, Records.mk.injEq] at hr
  obtain ⟨hcfg, hmem, hslots, hwatch, hactivity, hcoverage, hload, hcountdown, -⟩ := hr
  constructor
  · rw [hcfg]; exact h.config
  · rw [hcfg, hslots]; exact h.slots
  · rw [hcfg, hmem]; exact h.memory
  · rw [hwatch]; exact h.watchRead
  · rw [hwatch]; exact h.watchWrite
  · rw [hactivity]; exact h.activity
  · rw [hcoverage]; exact h.coverage
  · rw [hcfg, hcountdown]; exact h.countdown
  · rw [hcfg, hload]; exact h.loadCount

theorem Inv.display (h : Inv s) (ula : Ula) (notices : List Notice) :
    Inv { s with ula := ula, notices := notices } := { h with }

theorem Inv.setCountdown (h : Inv s) {v : Int}
    (hv : s.cfg.intPeriodT = 0 ∨ (0 < v ∧ v ≤ s.cfg.intPeriodT)) : Inv (setCountdown v s) :=
  { h with countdown := hv }

/-- A call takes at most 42 T-states off a countdown above 0, and a maskable entry 19 more, fewer than the 64 of the
shortest period; so the countdown that expires starts again above 0 (60_exceptions.md R530, R533). -/
theorem Inv.countdownEntry (h : Inv s) {n : Nat} (hn : n ≤ 42) (hf : (countdownEntry n s).2.fault = none) :
    Inv (countdownEntry n s).2 := by
  obtain ⟨-, hperiod, -, -⟩ := bounds_of_check h.config
  have hrange := h.countdown
  obtain ⟨-, heq⟩ | ⟨hon, hleft, heq⟩ | ⟨hon, hleft, u, x, v, rfl, hentry, heq⟩ := countdownEntry_cases n s <;>
    rw [heq] at hf ⊢
  · exact h
  · exact h.setCountdown (.inr (by omega))
  · have hkept := generateInterrupt_fault (by rw [hentry]; exact hf)
    have hv := inv_closed.generateInterrupt (h.setCountdown (.inr (by omega))) _ _ hkept
    obtain ⟨hfixed, -, hcountdown⟩ := generateInterrupt_fixed _ _ hkept
    have hcost := generateInterrupt_cost false s.cfg.intBusByte
      (Machine.setCountdown (s.cpu.intCountdown - n + s.cfg.intPeriodT) s)
    rw [hentry] at hv hfixed hcountdown hcost
    have hcfg : v.cfg = s.cfg := congrArg Fixed.cfg hfixed
    refine hv.setCountdown (.inr ?_)
    rw [hcfg, hcountdown, setCountdown_cpu_intCountdown]
    omega

/-- A load window that fills starts again at 0 (60_exceptions.md R534). -/
theorem Inv.loadAccount (h : Inv s) (idle : Bool) (tIns tInt nAcc : Nat) :
    Inv (loadAccount idle tIns tInt nAcc s) := by
  have hwindow := (bounds_of_check h.config).2.2.2
  unfold Machine.loadAccount
  dsimp only
  split
  · exact { h with loadCount := hwindow }
  · exact { h with loadCount := Nat.lt_of_not_le ‹_› }

theorem Inv.addCoverage (h : Inv s) (a : Word) : Inv (addCoverage a s) := by
  unfold Machine.addCoverage
  split
  · exact h
  · next hnew =>
    refine { h with coverage := ?_ }
    rw [List.nodup_append]
    simpa using ⟨h.coverage, fun b hb hba => hnew (by simpa [hba] using hb)⟩

/-- The fetch interception writes the ULA alone. -/
theorem ulaIntercept_display (pc0 : Word) (b : Byte) (s : State) : let t := (ulaIntercept pc0 b s).2
    t = { s with ula := t.ula, notices := t.notices } := by
  unfold ulaIntercept
  split
  · dsimp only; split <;> rfl
  · rfl

theorem inv_stepClosed : StepClosed Inv where
  toClosed := inv_closed
  bookkeeping h hr := h.of_records hr
  executed a h := { h with activity := markExecuted_wf a h.activity }
  intercept pc0 b _ h := by rw [ulaIntercept_display]; exact h.display _ _
  countdown n hn hf h := h.countdownEntry hn hf
  account idle tIns tInt nAcc h := h.loadAccount idle tIns tInt nAcc
  display ula notices h := h.display ula notices
  cover a h := h.addCoverage a

/-! ### The scanline clock and the kept character -/

/-- From `s` to `t` the ULA has not run: its clock is as it was, and so is the kept character but in the bus-replay
variant, whose fetch may keep one. -/
def UlaWaits (s t : State) : Prop :=
  t.cfg = s.cfg ∧ t.ula.t = s.ula.t ∧ t.ula.lineT = s.ula.lineT ∧
    (s.cfg.ulaVariant ≠ .busReplay → t.ula.pendingChar = s.ula.pendingChar)

/-- What `UlaWaits` reads of a state. -/
def ulaWaitView (s : State) : Config × Nat × Nat × Option (Word × Byte) :=
  (s.cfg, s.ula.t, s.ula.lineT, s.ula.pendingChar)

theorem UlaWaits.of_view {u : State} (h : UlaWaits s t) (hv : ulaWaitView u = ulaWaitView t) : UlaWaits s u := by
  simp only [ulaWaitView, Prod.mk.injEq] at hv
  obtain ⟨hcfg, hut, hline, hchar⟩ := hv
  obtain ⟨gcfg, gut, gline, gchar⟩ := h
  exact ⟨hcfg.trans gcfg, hut.trans gut, hline.trans gline, fun hv => hchar.trans (gchar hv)⟩

theorem PortsOnly.ulaWaitView (h : PortsOnly s t) : ulaWaitView t = ulaWaitView s := by
  obtain ⟨-, -, -, -, -, -, hothers⟩ := h
  have hview := congrArg Machine.ulaWaitView hothers
  exact hview

theorem ulaWaits_closed (s : State) : Closed (UlaWaits s) where
  regs _ h _ _ := h
  draws _ h := h
  cost _ h := h
  note _ _ h := h
  store _ _ h := h
  input port h := h.of_view (portRead_ports port _).ulaWaitView
  output port v h := h.of_view (portWrite_ports port v _).ulaWaitView

theorem loadAccount_only (idle : Bool) (tIns tInt nAcc : Nat) (s : State) : let t := loadAccount idle tIns tInt nAcc s
    t = { s with load := t.load } := by
  unfold loadAccount
  dsimp only
  split <;> rfl

theorem ulaWaits_callClosed (s : State) : CallClosed (UlaWaits s) where
  toClosed := ulaWaits_closed s
  bookkeeping h hr := h.of_view <| by
    simp only [records, Records.mk.injEq] at hr
    simp only [Machine.ulaWaitView, hr]
  executed _ h := h
  intercept {t} pc0 b hbus h := by
    obtain ⟨hcfg, hut, hline, -⟩ := h
    have hclock : (ulaIntercept pc0 b t).2.cfg = t.cfg ∧ (ulaIntercept pc0 b t).2.ula.t = t.ula.t ∧
        (ulaIntercept pc0 b t).2.ula.lineT = t.ula.lineT := by
      rw [ulaIntercept_fetchOnly pc0 b t]
      exact ⟨rfl, rfl, rfl⟩
    obtain ⟨gcfg, gut, gline⟩ := hclock
    exact ⟨gcfg.trans hcfg, gut.trans hut, gline.trans hline, fun hv => absurd (hcfg ▸ hbus) hv⟩
  countdown _ _ hf h := (ulaWaits_closed s).countdownEntry (fun _ h => h) h hf
  account idle tIns tInt nAcc h := by rw [loadAccount_only]; exact h

/-! ### The clock while the ULA runs -/

/-- From `s` to `t` the scanline clock was set back by `k` T-states; what else decides the ULA's timing is as it was. -/
structure SetBack (k : Nat) (s t : State) : Prop where
  cfg : t.cfg = s.cfg
  ulaT : t.ula.t = s.ula.t
  lineT : t.ula.lineT = s.ula.lineT - k
  nmiOn : t.ula.nmiOn = s.ula.nmiOn
  pendingChar : t.ula.pendingChar = s.ula.pendingChar

theorem SetBack.trans {j k : Nat} {u : State} (h : SetBack j s t) (h' : SetBack k t u) : SetBack (j + k) s u :=
  ⟨h'.cfg.trans h.cfg, h'.ulaT.trans h.ulaT, by rw [h'.lineT, h.lineT, Nat.sub_sub], h'.nmiOn.trans h.nmiOn,
    h'.pendingChar.trans h.pendingChar⟩

theorem endOfLine_setBack (s : State) : SetBack 0 s (endOfLine s) := by
  unfold endOfLine
  split <;> exact ⟨rfl, rfl, rfl, rfl, rfl⟩

theorem frameComplete_setBack (s : State) : SetBack 0 s (frameComplete s) := by
  unfold frameComplete
  split <;> exact ⟨rfl, rfl, rfl, rfl, rfl⟩

theorem vsyncTrack_setBack (s : State) : SetBack 0 s (vsyncTrack s) := by
  unfold vsyncTrack
  dsimp only
  repeat' split
  · exact ⟨rfl, rfl, rfl, rfl, rfl⟩
  · refine SetBack.trans (j := 0) ?_ (frameComplete_setBack _)
    exact ⟨rfl, rfl, rfl, rfl, rfl⟩
  · exact ⟨rfl, rfl, rfl, rfl, rfl⟩
  · exact ⟨rfl, rfl, rfl, rfl, rfl⟩

/-- A non-maskable entry moves no clock, and none is made while the generator is off. -/
theorem hsyncActions_setBack (s : State) :
    SetBack 0 s (hsyncActions s).2 ∧ (s.ula.nmiOn = false → (hsyncActions s).1 = 0) := by
  unfold hsyncActions
  split
  · next hon =>
    have hula : (generateInterrupt true 0x00#8 s).2.ula = s.ula := (enterInterrupt_timing true 0x00#8 s).2
    have hcfg : (generateInterrupt true 0x00#8 s).2.cfg = s.cfg :=
      congrArg Fixed.cfg ((fixed_closed (fixed s)).enterInterrupt rfl true 0x00#8)
    exact ⟨⟨hcfg, by rw [hula], by rw [hula, Nat.sub_zero], by rw [hula], by rw [hula]⟩, by simp [hon]⟩
  · exact ⟨⟨rfl, rfl, rfl, rfl, rfl⟩, fun _ => rfl⟩

/-- A horizontal-sync edge sets the scanline clock back by one period. -/
theorem hsyncEdge_setBack (s : State) :
    SetBack s.cfg.tScanline s (hsyncEdge s).2 ∧ (s.ula.nmiOn = false → (hsyncEdge s).1 = 0) := by
  set u : State := { s with ula := { s.ula with
    lineT := s.ula.lineT - s.cfg.tScanline
    hsyncEdgeT := s.ula.t - (s.ula.lineT - s.cfg.tScanline), line := s.ula.line + 1 } }
  have hu : SetBack s.cfg.tScanline s u := ⟨rfl, rfl, rfl, rfl, rfl⟩
  have hline := hu.trans (endOfLine_setBack u)
  obtain ⟨hactions, hoff⟩ := hsyncActions_setBack (endOfLine u)
  exact ⟨hline.trans hactions, fun hn => hoff (hline.nmiOn.trans hn)⟩

theorem hsyncEdges_setBack (n : Nat) (s : State) :
    SetBack (n * s.cfg.tScanline) s (hsyncEdges n s).2 ∧ (s.ula.nmiOn = false → (hsyncEdges n s).1 = 0) := by
  induction n generalizing s with
  | zero => exact ⟨⟨rfl, rfl, by simp [hsyncEdges], rfl, rfl⟩, fun _ => rfl⟩
  | succ n ih =>
    obtain ⟨hedge, hedgeOff⟩ := hsyncEdge_setBack s
    obtain ⟨hrest, hrestOff⟩ := ih (hsyncEdge s).2
    rw [hedge.cfg] at hrest
    refine ⟨?_, fun hn => ?_⟩
    · rw [Nat.succ_mul, Nat.add_comm]
      exact hedge.trans hrest
    · change (hsyncEdge s).1 + (hsyncEdges n (hsyncEdge s).2).1 = 0
      rw [hedgeOff hn, hrestOff (hedge.nmiOn.trans hn)]

/-- `UlaStep` moves `ula.t` and `line_t` on by its T-states, takes the completed scanlines off `line_t`, and then moves
both on by the T-states it adds, none while the generator is off (60_exceptions.md R547). -/
theorem advanceUla_clock (n : Nat) (s : State) :
    ∃ extra, (advanceUla n s).2.cfg = s.cfg ∧ (advanceUla n s).2.ula.t = s.ula.t + n + extra ∧
      (advanceUla n s).2.ula.lineT = (s.ula.lineT + n) % s.cfg.tScanline + extra ∧
      (advanceUla n s).2.ula.nmiOn = s.ula.nmiOn ∧
      (advanceUla n s).2.ula.pendingChar = s.ula.pendingChar ∧ (s.ula.nmiOn = false → extra = 0) := by
  set u : State := { s with ula := { s.ula with t := s.ula.t + n, lineT := s.ula.lineT + n } }
  obtain ⟨hedges, hoff⟩ := hsyncEdges_setBack ((s.ula.lineT + n) / s.cfg.tScanline) u
  have hrun := hedges.trans (vsyncTrack_setBack _)
  refine ⟨_, hrun.cfg, congrArg (· + _) hrun.ulaT, ?_, hrun.nmiOn, hrun.pendingChar, hoff⟩
  rw [Nat.mod_eq_sub_div_mul]
  exact congrArg (· + _) hrun.lineT

/-- A ULA step meets the scanline clock's bounds wherever `line_t` is no later than `ula.t` before it. -/
theorem ulaStep_ulaClock (n : Nat) (h : s.cfg.check = none) (hle : s.ula.lineT ≤ s.ula.t) :
    UlaClock (ulaStep n s).2 := by
  obtain ⟨-, -, hscanline, -⟩ := bounds_of_check h
  have hadvance (s' : State) (hcfg : s'.cfg = s.cfg) (hclock : s'.ula.lineT ≤ s'.ula.t) :
      UlaClock (advanceUla n s').2 := by
    obtain ⟨extra, gcfg, gt, gline, gnmi, -, goff⟩ := advanceUla_clock n s'
    have hmod := Nat.mod_le (s'.ula.lineT + n) s'.cfg.tScanline
    refine ⟨by omega, ?_⟩
    rw [gcfg, gline, gnmi, hcfg]
    refine hscanline.imp_right fun hpos => ?_
    cases hnmi : s'.ula.nmiOn
    · rw [goff hnmi]
      exact .inr (Nat.mod_lt _ hpos)
    · exact .inl rfl
  unfold ulaStep
  split
  · exact ⟨hle, .inl ‹_›⟩
  · exact hadvance s rfl hle
  · refine hadvance _ ?_ ?_
    · rw [showPending_only s]
    · rw [showPending_only s]; exact hle

/-- After a ULA step no character is kept, in a variant that shows characters or where none was kept before. -/
theorem ulaStep_pendingChar (n : Nat) (h : s.cfg.ulaVariant ≠ .busReplay → s.ula.pendingChar = none) :
    (ulaStep n s).2.ula.pendingChar = none := by
  have hadvance (s' : State) (hs' : s'.ula.pendingChar = none) : (advanceUla n s').2.ula.pendingChar = none := by
    obtain ⟨_, -, -, -, -, hkept, -⟩ := advanceUla_clock n s'
    rw [hkept, hs']
  unfold ulaStep
  split
  · next hv => exact h (by simp [hv])
  · next hv => exact hadvance s (h (by simp [hv]))
  · exact hadvance _ (showPending_pendingChar s)

theorem addCoverage_only (a : Word) (s : State) : let t := addCoverage a s
    t = { s with coverage := t.coverage } := by
  unfold addCoverage
  split <;> rfl

@[simp] theorem addCoverage_cfg (a : Word) (s : State) : (addCoverage a s).cfg = s.cfg := by
  rw [addCoverage_only]

@[simp] theorem addCoverage_ula (a : Word) (s : State) : (addCoverage a s).ula = s.ula := by
  rw [addCoverage_only]

/-- Settles O3: the call and the ULA step keep each part of the invariant; the ULA alone moves the scanline clock and
shows the character that a fetch has kept. -/
theorem invariantKept : Obligations.InvariantKept := by
  intro s t hinv hstep
  obtain ⟨-, u, hcall, hu, rfl⟩ := step_of_next hstep
  obtain ⟨hcfg, hut, hline, hchar⟩ :=
    (ulaWaits_callClosed s).executeOne (s := { s with failure := none }) ⟨rfl, rfl, rfl, fun _ => rfl⟩ hcall hu
  have hcheck : u.cfg.check = none := hcfg ▸ hinv.config
  refine ⟨inv_stepClosed.step hinv hstep, fun hclock => ?_, fun hnone => ?_⟩
  · have hrun := ulaStep_ulaClock u.tCall hcheck (by rw [hut, hline]; exact hclock.1)
    rw [finishStep_of_no_fault hu]
    simpa [UlaClock] using hrun
  · rw [finishStep_of_no_fault hu, addCoverage_ula]
    exact ulaStep_pendingChar u.tCall fun hv => (hchar (hcfg ▸ hv)).trans hnone

end Sys2Proof.Machine
end

section
/-! PROOFS. No step changes a byte of a ROM or UNMAPPED bank (10_state.md R52, 20_memory.md R83, R104). -/

namespace Sys2Proof.Machine

variable {s t : State}

/-- From `s` to `t` memory stays canonical, and every byte of a ROM or UNMAPPED bank holds what it held. -/
structure RomKept (s t : State) : Prop where
  cfg : t.cfg = s.cfg
  memory : Memory.wf t.cfg t.mem = true
  bytes : ∀ {b : Nat} {bank : Bank} {offset : Nat}, s.cfg.banks[b]? = some bank → bank.kind ≠ .ram → offset < 65536 →
    cell t (b * 65536 + offset) = cell s (b * 65536 + offset)

theorem RomKept.refl (h : Memory.wf s.cfg s.mem = true) : RomKept s s := ⟨rfl, h, fun _ _ _ => rfl⟩

theorem RomKept.congr {u : State} (h : RomKept s t) (hcfg : u.cfg = t.cfg) (hmem : u.mem = t.mem) : RomKept s u :=
  ⟨hcfg.trans h.cfg, by rw [hcfg, hmem]; exact h.memory,
    fun hb hk ho => (cell_congr hcfg hmem _).trans (h.bytes hb hk ho)⟩

theorem ram_of_stores {kind : BankKind} (h : stores kind false = true) : kind = .ram := by
  cases kind
  · rfl
  · exact nomatch h
  · exact nomatch h

/-- A bus write reaches RAM alone: the byte it stores lies in the bank its key names, and that bank is RAM. -/
theorem RomKept.store (h : RomKept s t) (x : Word) (v : Byte) : RomKept s (poke false x v t) where
  cfg := h.cfg
  memory := poke_wf h.memory false x v
  bytes {b bank offset} hb hk ho := by
    rw [cell_poke h.memory, ← h.bytes hb hk ho]
    split
    · next p hp =>
      refine if_neg fun ⟨hkey, hstores⟩ => hk ?_
      obtain ⟨hbank, hoffset⟩ := locate_bank hp
      have hno : p.bankNo = b := by simp only [Place.key] at hkey; omega
      rw [Config.bank?, h.cfg, hno, hb] at hbank
      exact Option.some.inj hbank ▸ ram_of_stores hstores
    · rfl

theorem romKept_closed (s : State) : Closed (RomKept s) where
  regs _ h _ _ := h.congr rfl rfl
  draws _ h := h.congr rfl rfl
  cost _ h := h.congr rfl rfl
  note _ _ h := h.congr rfl rfl
  store x v h := h.store x v
  input port h := h.congr (portRead_ports port _).cfg (portRead_ports port _).2.1
  output port v h := h.congr (portWrite_ports port v _).cfg (portWrite_ports port v _).2.1

theorem romKept_stepClosed (s : State) : StepClosed (RomKept s) where
  toClosed := romKept_closed s
  bookkeeping h hr := h.congr (congrArg Records.cfg hr) (congrArg Records.mem hr)
  executed _ h := h.congr rfl rfl
  intercept pc0 b _ h := by rw [ulaIntercept_display]; exact h.congr rfl rfl
  countdown _ _ hf h := (romKept_closed s).countdownEntry (fun _ h => h.congr rfl rfl) h hf
  account idle tIns tInt nAcc h := by rw [loadAccount_only]; exact h.congr rfl rfl
  display _ _ h := h.congr rfl rfl
  cover a h := by rw [addCoverage_only]; exact h.congr rfl rfl

/-- Settles O12: every write of a step is a bus write, and a bus write reaches RAM alone. -/
theorem romImmutable : Obligations.RomImmutable := by
  intro s t hinv hstep b bank offset hb hk ho
  exact ((romKept_stepClosed s).step (RomKept.refl hinv.memory) hstep).bytes hb hk ho

end Sys2Proof.Machine
end

section
/-! PROOFS. Which instructions write the shadow registers, the interrupt state, the index registers and the slot table
(10_state.md R33, R34, R42, R44 to R47, R53). -/

namespace Sys2Proof.Machine

variable {s t : State}

/-! ### What only named instructions write -/

/-- The registers, flip-flops and tables that only named instructions write. -/
structure Guarded where
  altA     : Byte
  altF     : Flags
  altB     : Byte
  altC     : Byte
  altD     : Byte
  altE     : Byte
  altH     : Byte
  altL     : Byte
  ix       : Word
  iy       : Word
  i        : Byte
  r        : Byte
  im       : IntMode
  iff1     : Bool
  iff2     : Bool
  halted   : Bool
  eiShadow : Bool
  slots    : List Nat
  script   : List Byte
  failure  : Option Failure

/-- The guarded items of a state. -/
def guarded (s : State) : Guarded where
  altA := s.cpu.altA
  altF := s.cpu.altF
  altB := s.cpu.altB
  altC := s.cpu.altC
  altD := s.cpu.altD
  altE := s.cpu.altE
  altH := s.cpu.altH
  altL := s.cpu.altL
  ix := s.cpu.ix
  iy := s.cpu.iy
  i := s.cpu.i
  r := s.cpu.r
  im := s.cpu.im
  iff1 := s.cpu.iff1
  iff2 := s.cpu.iff2
  halted := s.cpu.halted
  eiShadow := s.cpu.eiShadow
  slots := s.slots
  script := s.script
  failure := s.failure

/-- What an instruction may own: a half of the shadow set, `IM`, `I`, `R`, the flip-flops (`enable`: with `ei_shadow`;
`firstFlipFlop`: `IFF1` alone), `halted`, an index register, or what a port write reaches (`ports`). -/
inductive Owned where
  | nothing
  | altAF
  | altPairs
  | mode
  | vector
  | refresh
  | flipFlops
  | enable
  | firstFlipFlop
  | halt
  | ix
  | iy
  | ports
  deriving DecidableEq

/-- What instruction `i` owns (10_state.md R33, R34, R42, R44 to R47, R53). -/
def owned (i : Instr) : Owned :=
  match i with
  | .exAFAF => .altAF
  | .exx => .altPairs
  | .im0 | .im1 | .im2 => .mode
  | .ldIA => .vector
  | .ldRefreshA => .refresh
  | .di => .flipFlops
  | .ei => .enable
  | .retn => .firstFlipFlop
  | .halt => .halt
  | .ldIXNN _ | .ldIXAtNN _ | .popIX | .exAtSPIX | .addIXPP _ | .incIX | .decIX => .ix
  | .ldIYNN _ | .ldIYAtNN _ | .popIY | .exAtSPIY | .addIYRR _ | .incIY | .decIY => .iy
  | .outNA _ | .outCR _ | .outi | .otir | .outd | .otdr => .ports
  | _ => .nothing

/-- `old` with the owned items taken from `new`. -/
def Guarded.update (o : Owned) (new old : Guarded) : Guarded where
  altA := if o = .altAF then new.altA else old.altA
  altF := if o = .altAF then new.altF else old.altF
  altB := if o = .altPairs then new.altB else old.altB
  altC := if o = .altPairs then new.altC else old.altC
  altD := if o = .altPairs then new.altD else old.altD
  altE := if o = .altPairs then new.altE else old.altE
  altH := if o = .altPairs then new.altH else old.altH
  altL := if o = .altPairs then new.altL else old.altL
  ix := if o = .ix then new.ix else old.ix
  iy := if o = .iy then new.iy else old.iy
  i := if o = .vector then new.i else old.i
  r := if o = .refresh then new.r else old.r
  im := if o = .mode then new.im else old.im
  iff1 := if o = .flipFlops ∨ o = .enable ∨ o = .firstFlipFlop then new.iff1 else old.iff1
  iff2 := if o = .flipFlops ∨ o = .enable then new.iff2 else old.iff2
  halted := if o = .halt then new.halted else old.halted
  eiShadow := if o = .enable then new.eiShadow else old.eiShadow
  slots := if o = .ports then new.slots else old.slots
  script := if o = .ports then new.script else old.script
  failure := if o = .ports then new.failure else old.failure

/-- From `s` to `t` no guarded item has changed but those that instruction `i` owns. -/
def GuardedKept (i : Instr) (s t : State) : Prop := guarded t = (guarded t).update (owned i) (guarded s)

/-! ### What the operations leave -/

section
variable (s)

@[simp] theorem guarded_setTIns (n : Nat) : guarded (setTIns n s) = guarded s := by simp [guarded]
@[simp] theorem guarded_noteAccess (k : AccessKind) (x : Word) : guarded (noteAccess k x s) = guarded s := by
  simp [guarded]
@[simp] theorem guarded_read8 (x : Word) : guarded (read8 x s).2 = guarded s := by simp [guarded]
@[simp] theorem guarded_write8 (x : Word) (v : Byte) : guarded (write8 x v s) = guarded s := by simp [guarded]
@[simp] theorem guarded_setPC (v : Word) : guarded (setPC v s) = guarded s := by simp [guarded]
@[simp] theorem guarded_setSP (v : Word) : guarded (setSP v s) = guarded s := by simp [guarded]
@[simp] theorem guarded_setBC (v : Word) : guarded (setBC v s) = guarded s := by simp [guarded]
@[simp] theorem guarded_setDE (v : Word) : guarded (setDE v s) = guarded s := by simp [guarded]
@[simp] theorem guarded_setHL (v : Word) : guarded (setHL v s) = guarded s := by simp [guarded]
@[simp] theorem guarded_setA (v : Byte) : guarded (setA v s) = guarded s := by simp [guarded]
@[simp] theorem guarded_setB (v : Byte) : guarded (setB v s) = guarded s := by simp [guarded]
@[simp] theorem guarded_setIX (v : Word) : guarded (setIX v s) = { guarded s with ix := v } := by simp [guarded]
@[simp] theorem guarded_setIY (v : Word) : guarded (setIY v s) = { guarded s with iy := v } := by simp [guarded]
@[simp] theorem guarded_setFlags (fs : FlagSet) : guarded (setFlags fs s) = guarded s := by simp [guarded]

@[simp] theorem guarded_setR8 (g : Reg8) (v : Byte) : guarded (setR8 g v s) = guarded s := by cases g <;> rfl
@[simp] theorem guarded_setR16 (g : Reg16) (v : Word) : guarded (setR16 g v s) = guarded s := by cases g <;> rfl
@[simp] theorem guarded_setR16AF (g : Reg16AF) (v : Word) : guarded (setR16AF g v s) = guarded s := by cases g <;> rfl

@[simp] theorem guarded_memRead16 (x : Word) : guarded (memRead16 x s).2 = guarded s := by simp [memRead16]
@[simp] theorem guarded_memWrite16 (x v : Word) : guarded (memWrite16 x v s) = guarded s := by simp [memWrite16]
@[simp] theorem guarded_pushWord (v : Word) : guarded (pushWord v s) = guarded s := by simp [pushWord]
@[simp] theorem guarded_popWord : guarded (popWord s).2 = guarded s := by simp [popWord]
@[simp] theorem guarded_exchangeTop (v : Word) : guarded (exchangeTop v s).2 = guarded s := by simp [exchangeTop]
@[simp] theorem guarded_callTo (v : Word) : guarded (callTo v s) = guarded s := by simp [callTo]
@[simp] theorem guarded_returnFrom : guarded (returnFrom s) = guarded s := by simp [returnFrom]

@[simp] theorem guarded_modifyReg (g : Reg8) (f : Byte → Byte × FlagSet) : guarded (modifyReg g f s) = guarded s := by
  simp [modifyReg]
@[simp] theorem guarded_modifyAt (x : Word) (f : Byte → Byte × FlagSet) : guarded (modifyAt x f s) = guarded s := by
  simp [modifyAt]
@[simp] theorem guarded_rewriteAt (x : Word) (f : Byte → Byte) : guarded (rewriteAt x f s) = guarded s := by
  simp [rewriteAt]
@[simp] theorem guarded_rotateA (f : Byte → Byte × Bool) : guarded (rotateA f s) = guarded s := by simp [rotateA]
@[simp] theorem guarded_addIn (v : Byte) : guarded (addIn v s) = guarded s := by simp [addIn]
@[simp] theorem guarded_adcIn (v : Byte) : guarded (adcIn v s) = guarded s := by simp [adcIn]
@[simp] theorem guarded_subIn (v : Byte) : guarded (subIn v s) = guarded s := by simp [subIn]
@[simp] theorem guarded_sbcIn (v : Byte) : guarded (sbcIn v s) = guarded s := by simp [sbcIn]
@[simp] theorem guarded_andIn (v : Byte) : guarded (andIn v s) = guarded s := by simp [andIn]
@[simp] theorem guarded_orIn (v : Byte) : guarded (orIn v s) = guarded s := by simp [orIn]
@[simp] theorem guarded_xorIn (v : Byte) : guarded (xorIn v s) = guarded s := by simp [xorIn]
@[simp] theorem guarded_cpIn (v : Byte) : guarded (cpIn v s) = guarded s := by simp [cpIn]

@[simp] theorem guarded_blockMove (d : Word) : guarded (blockMove d s) = guarded s := by simp [blockMove]
@[simp] theorem guarded_blockSearch (d : Word) : guarded (blockSearch d s) = guarded s := by simp [blockSearch]

/-- A port read writes no guarded item. -/
@[simp] theorem guarded_portRead (port : Word) : guarded (portRead port s).2 = guarded s := by
  obtain ⟨hcpu, -⟩ := portRead_ports port s
  obtain ⟨hslots, hscript, hfailure⟩ := portRead_rest port s
  simp only [guarded, hcpu, hslots, hscript, hfailure]

@[simp] theorem guarded_blockInput (d : Word) : guarded (blockInput d s) = guarded s := by simp [blockInput]

end

/-- A return from a non-maskable interrupt copies one flip-flop to the other (60_exceptions.md R524). -/
theorem guarded_returnFromNmi (s : State) :
    guarded (returnFromNmi s) = { guarded s with iff1 := (returnFrom s).cpu.iff2 } := by
  rw [← guarded_returnFrom s]
  rfl

/-- A port write may write the slot table, the script state and the failure, and no other guarded item. -/
theorem guarded_portWrite (port : Word) (v : Byte) (s : State) :
    guarded (portWrite port v s) =
      { guarded s with
        slots := (portWrite port v s).slots, script := (portWrite port v s).script
        failure := (portWrite port v s).failure } := by
  obtain ⟨hcpu, -⟩ := portWrite_ports port v s
  simp only [guarded, hcpu]

theorem guarded_blockOutput (d : Word) (s : State) :
    guarded (blockOutput d s) =
      { guarded s with
        slots := (blockOutput d s).slots, script := (blockOutput d s).script, failure := (blockOutput d s).failure } := by
  simp [blockOutput, guarded_portWrite]

@[simp] theorem Guarded.update_nothing (new old : Guarded) : new.update .nothing old = old := rfl
@[simp] theorem Guarded.update_ix (new old : Guarded) : new.update .ix old = { old with ix := new.ix } := rfl
@[simp] theorem Guarded.update_iy (new old : Guarded) : new.update .iy old = { old with iy := new.iy } := rfl

/-! ### What an instruction leaves -/

section
variable {i : Instr} {n : Nat} {u : State}

theorem done_guardedKept {o : Owned} (ho : owned i = o) (h : guarded u = (guarded u).update o (guarded s)) :
    Next (GuardedKept i s) (done n u) := by
  refine ⟨_, rfl, ?_⟩
  rw [GuardedKept, ho, guarded_setTIns]
  exact h

theorem repeatWhileB_guardedKept {o : Owned} (ho : owned i = o)
    (h : guarded u = (guarded u).update o (guarded s)) : Next (GuardedKept i s) (repeatWhileB u) := by
  refine Next.ite _ (done_guardedKept ho ?_) (done_guardedKept ho h)
  rwa [guarded_setPC]

end

/-- Every instruction leaves the guarded items it does not own. -/
theorem exec_guardedKept (i : Instr) (s : State) : Next (GuardedKept i s) (exec i s) := by
  cases i
  case exAFAF | exx | im0 | im1 | im2 | ldIA | ldRefreshA | di | ei | halt => exact ⟨_, rfl, rfl⟩
  case retn =>
    refine done_guardedKept (o := .firstFlipFlop) rfl ?_
    rw [guarded_returnFromNmi]
    rfl
  case ldIXNN | ldIXAtNN | popIX | exAtSPIX | addIXPP | incIX | decIX =>
    refine done_guardedKept (o := .ix) rfl ?_
    simp
  case ldIYNN | ldIYAtNN | popIY | exAtSPIY | addIYRR | incIY | decIY =>
    refine done_guardedKept (o := .iy) rfl ?_
    simp
  case outNA | outCR => exact done_guardedKept (o := .ports) rfl (guarded_portWrite _ _ _)
  case outi | outd => exact done_guardedKept (o := .ports) rfl (guarded_blockOutput _ _)
  case otir | otdr => exact repeatWhileB_guardedKept (o := .ports) rfl (guarded_blockOutput _ _)
  case inAN n =>
    refine done_guardedKept (o := .nothing) rfl ?_
    rw [guarded_setA]
    exact guarded_portRead s (portAN s n)
  case inRC dst =>
    refine done_guardedKept (o := .nothing) rfl ?_
    rw [guarded_setFlags, guarded_setR8]
    exact guarded_portRead s (bc s)
  case ldir | lddr | cpir | cpdr | inir | indr | jrC | jrNC | jrZ | jrNZ | djnz | callCCNN | retCC =>
    refine Next.ite _ (done_guardedKept (o := .nothing) rfl ?_) (done_guardedKept (o := .nothing) rfl ?_) <;> simp
  case jpCCNN =>
    refine done_guardedKept (o := .nothing) rfl ?_
    split <;> simp
  all_goals
    refine done_guardedKept (o := .nothing) rfl ?_
    simp

/-! ### Which instructions own an item -/

/-- Instruction `i` is among those that may write the item: the condition under which the ownership statement says
nothing of it. -/
def Owned.claimedBy (i : Instr) : Owned → Prop
  | .nothing => True
  | .altAF => i = .exAFAF
  | .altPairs => i = .exx
  | .mode => i ∈ [.im0, .im1, .im2]
  | .vector => i = .ldIA
  | .refresh => i = .ldRefreshA
  | .flipFlops => i = .di
  | .enable => i = .ei
  | .firstFlipFlop => i = .retn
  | .halt => i = .halt
  | .ix => ¬ ∀ nn pp, i ∉ [.ldIXNN nn, .ldIXAtNN nn, .popIX, .exAtSPIX, .addIXPP pp, .incIX, .decIX]
  | .iy => ¬ ∀ nn rr, i ∉ [.ldIYNN nn, .ldIYAtNN nn, .popIY, .exAtSPIY, .addIYRR rr, .incIY, .decIY]
  | .ports => ¬ ∀ n r, i ∉ [.outNA n, .outCR r, .outi, .otir, .outd, .otdr]

theorem owned_claimedBy (i : Instr) : (owned i).claimedBy i := by
  cases i
  case exAFAF | exx | ldIA | ldRefreshA | di | ei | retn | halt => rfl
  case im0 | im1 | im2 =>
    change Owned.mode.claimedBy _
    simp [Owned.claimedBy]
  case ldIXNN nn | ldIXAtNN nn => exact fun h => h nn .bc (by simp)
  case addIXPP pp => exact fun h => h 0#16 pp (by simp)
  case popIX | exAtSPIX | incIX | decIX => exact fun h => h 0#16 .bc (by simp)
  case ldIYNN nn | ldIYAtNN nn => exact fun h => h nn .bc (by simp)
  case addIYRR rr => exact fun h => h 0#16 rr (by simp)
  case popIY | exAtSPIY | incIY | decIY => exact fun h => h 0#16 .bc (by simp)
  case outNA n => exact fun h => h n .a (by simp)
  case outCR r => exact fun h => h 0#8 r (by simp)
  case outi | otir | outd | otdr => exact fun h => h 0#8 .a (by simp)
  all_goals trivial

theorem owned_ne {i : Instr} {o : Owned} (h : ¬ o.claimedBy i) : owned i ≠ o :=
  fun ho => h (ho ▸ owned_claimedBy i)

/-- Settles O11: an instruction leaves the guarded items it does not own, and nothing owns the rest. -/
theorem registerOwnership : Obligations.RegisterOwnership := by
  intro i s t h
  obtain ⟨u, hu, hkept⟩ := exec_guardedKept i s
  cases hu.symm.trans h
  obtain ⟨hdeferred, hcountdown⟩ := exec_held i h
  have hfixed := exec_fixed i h
  have item {α : Type} (f : Guarded → α) : f (guarded t) = f ((guarded t).update (owned i) (guarded s)) :=
    congrArg f hkept
  refine ⟨fun hi => ?_, fun hi => ?_, fun hi => ?_, fun hi => ?_, fun hi => ?_, fun hi => ?_, fun hi => ?_,
    fun hi => ?_, fun hi => ?_, fun hi => ?_, fun hi => ?_, fun hi => ?_, hdeferred, hcountdown,
    congrArg Fixed.cfg hfixed, congrArg Fixed.pc0 hfixed, congrArg Fixed.dbg hfixed, congrArg Fixed.load hfixed,
    congrArg Fixed.coverage hfixed, congrArg Fixed.tTotal hfixed, congrArg Fixed.notices hfixed,
    congrArg Fixed.fault hfixed⟩
  · have hne := owned_ne (o := .altAF) hi
    exact ⟨(item Guarded.altA).trans (if_neg hne), (item Guarded.altF).trans (if_neg hne)⟩
  · have hne := owned_ne (o := .altPairs) hi
    exact ⟨(item Guarded.altB).trans (if_neg hne), (item Guarded.altC).trans (if_neg hne),
      (item Guarded.altD).trans (if_neg hne), (item Guarded.altE).trans (if_neg hne),
      (item Guarded.altH).trans (if_neg hne), (item Guarded.altL).trans (if_neg hne)⟩
  · exact (item Guarded.im).trans (if_neg (owned_ne (o := .mode) hi))
  · exact (item Guarded.i).trans (if_neg (owned_ne (o := .vector) hi))
  · exact (item Guarded.r).trans (if_neg (owned_ne (o := .refresh) hi))
  · have hdi : owned i ≠ .flipFlops := owned_ne fun e : i = .di => hi (by simp [e])
    have hei : owned i ≠ .enable := owned_ne fun e : i = .ei => hi (by simp [e])
    have hretn : owned i ≠ .firstFlipFlop := owned_ne fun e : i = .retn => hi (by simp [e])
    exact (item Guarded.iff1).trans (if_neg (by simp [hdi, hei, hretn]))
  · have hdi : owned i ≠ .flipFlops := owned_ne fun e : i = .di => hi (by simp [e])
    have hei : owned i ≠ .enable := owned_ne fun e : i = .ei => hi (by simp [e])
    exact (item Guarded.iff2).trans (if_neg (by simp [hdi, hei]))
  · exact (item Guarded.halted).trans (if_neg (owned_ne (o := .halt) hi))
  · exact (item Guarded.eiShadow).trans (if_neg (owned_ne (o := .enable) hi))
  · exact (item Guarded.ix).trans (if_neg (owned_ne (o := .ix) (not_not_intro hi)))
  · exact (item Guarded.iy).trans (if_neg (owned_ne (o := .iy) (not_not_intro hi)))
  · have hne := owned_ne (o := .ports) (not_not_intro hi)
    exact ⟨(item Guarded.slots).trans (if_neg hne), (item Guarded.script).trans (if_neg hne),
      (item Guarded.failure).trans (if_neg hne)⟩

end Sys2Proof.Machine
end

section
/-! PROOFS. The state after reset (10_state.md R64, 70_reset_and_hazards.md R601 to R603). -/

namespace Sys2Proof.Machine

/-- Memory with nothing listed reads as the image or the fill byte of each bank (10_state.md R64). -/
theorem cell_resetWith {cfg : Config} (launch : Launch) {b offset : Nat} {bank : Bank}
    (hb : cfg.banks[b]? = some bank) (ho : offset < 65536) :
    cell (State.resetWith cfg launch) (b * 65536 + offset) = initialByte bank offset := by
  have hbank : (b * 65536 + offset) / 65536 = b := by omega
  have hoffset : (b * 65536 + offset) % 65536 = offset := by omega
  change unlistedByte cfg (b * 65536 + offset) = initialByte bank offset
  simp only [unlistedByte, hbank, hoffset, Config.bank?, hb]

/-- Settles O1: each register, counter, table and mark is set by reset as the spec states, and memory lists nothing. -/
theorem resetState : Obligations.ResetState := by
  intro cfg launch
  and_intros
  any_goals rfl
  · exact fun b bank offset hb ho => cell_resetWith launch hb ho
  · intro kind a
    cases kind <;> rfl
  · exact fun _ => rfl

end Sys2Proof.Machine
end

section
/-! PROOFS. Watchpoint counts over address ranges (20_memory.md R95 to R98). -/

namespace Sys2Proof.Machine

variable {w : Watch}

/-- Both count lists are in canonical form: what the invariant says of the watchpoints (log 6). -/
def Watch.Canonical (w : Watch) : Prop :=
  Sparse.wf (fun _ => 0) w.read = true ∧ Sparse.wf (fun _ => 0) w.write = true

theorem Inv.watch_canonical {s : State} (h : Inv s) : s.watch.Canonical := ⟨h.watchRead, h.watchWrite⟩

theorem Watch.Canonical.update (h : w.Canonical) (kind : AccessKind) (f : Nat → Nat) (a : Word) :
    (w.update kind f a).Canonical :=
  Watch.update_wf kind f a h.1 h.2

theorem Watch.Canonical.updateRange (h : w.Canonical) (onRead onWrite : Bool) (f : Nat → Nat) (a0 : Word) (len : Nat) :
    (w.updateRange onRead onWrite f a0 len).Canonical := by
  induction len generalizing a0 w with
  | zero => exact h
  | succ len ih =>
    refine ih ?_ _
    cases onRead <;> cases onWrite
    · exact h
    · exact h.update .write f a0
    · exact h.update .read f a0
    · exact (h.update .read f a0).update .write f a0

/-- Whether a watchpoint on the kinds `onRead`, `onWrite` counts accesses of this kind. -/
def AccessKind.chosen (onRead onWrite : Bool) : AccessKind → Bool
  | .read => onRead
  | .write => onWrite

/-- At one address, the count of each chosen kind changes once and the other counts stay: by cases on which counts are
changed and which one is asked for. -/
theorem Watch.count_updateRange_one (h : w.Canonical) (onRead onWrite : Bool) (f : Nat → Nat) (a0 a : Word)
    (kind : AccessKind) :
    (w.updateRange onRead onWrite f a0 1).count kind a =
      if kind.chosen onRead onWrite = true ∧ a = a0 then f (w.count kind a) else w.count kind a := by
  have hread := h.update .read f a0
  cases onRead <;> cases onWrite <;> cases kind <;>
    simp [Watch.updateRange, AccessKind.chosen, Watch.count_update, h.1, h.2, hread.1, hread.2]

/-- What changing the counts over a range does to every count (20_memory.md R97): a range no longer than the address
space never comes back to its first address. -/
theorem Watch.count_updateRange (h : w.Canonical) (onRead onWrite : Bool) (f : Nat → Nat) (a0 a : Word) {len : Nat}
    (hlen : len ≤ 65536) (kind : AccessKind) :
    (w.updateRange onRead onWrite f a0 len).count kind a =
      if kind.chosen onRead onWrite = true ∧ (a - a0).toNat < len then f (w.count kind a) else w.count kind a := by
  induction len generalizing a0 w with
  | zero => simp [Watch.updateRange]
  | succ len ih =>
    have htail := ih (h.updateRange onRead onWrite f a0 1) (a0 + 1#16) (by omega)
    rw [Watch.count_updateRange_one h] at htail
    refine htail.trans ?_
    by_cases hhead : a = a0
    · subst hhead
      have hin : (a - a).toNat < len + 1 := by simp
      have hpast : ¬ (a - (a + 1#16)).toNat < len := by bv_omega
      simp only [hin, hpast, and_true, and_false, if_false]
    · have hin : (a - a0).toNat < len + 1 ↔ (a - (a0 + 1#16)).toNat < len := by bv_omega
      simp only [hin, hhead, and_false, if_false]

/-- An access at an address under watch leaves the hit already held, else its own (20_memory.md R95, R96). -/
theorem Watch.check_hit {kind : AccessKind} {a : Word} (h : 0 < w.count kind a) :
    (w.check kind a).hit = some (w.hit.getD (a, kind)) := by
  cases hhit : w.hit <;> simp [Watch.check, h, hhit]

section

variable {s : State} (h : s.watch.Canonical) (onRead onWrite : Bool) (a0 a : Word) {len : Nat} (hlen : len ≤ 65536)
  (kind : AccessKind)
include h

theorem setWatchpoint_canonical (len : Nat) : (setWatchpoint a0 len onRead onWrite s).watch.Canonical :=
  h.updateRange onRead onWrite _ a0 len

include hlen

/-- `setWatchpoint` counts one up for the chosen kinds over its range (20_memory.md R97). -/
theorem count_setWatchpoint : (setWatchpoint a0 len onRead onWrite s).watch.count kind a =
    if kind.chosen onRead onWrite = true ∧ (a - a0).toNat < len then s.watch.count kind a + 1
    else s.watch.count kind a :=
  Watch.count_updateRange h onRead onWrite _ a0 a hlen kind

/-- `removeWatchpoint` counts one down for the chosen kinds over its range, and not below 0 (20_memory.md R97). -/
theorem count_removeWatchpoint : (removeWatchpoint a0 len onRead onWrite s).watch.count kind a =
    if kind.chosen onRead onWrite = true ∧ (a - a0).toNat < len then s.watch.count kind a - 1
    else s.watch.count kind a :=
  Watch.count_updateRange h onRead onWrite _ a0 a hlen kind

end

/-- Settles O48: each range changes the counts of its own kind alone, so the write count set is still there when the
read watchpoint is gone. -/
theorem watchpointOverlap : Obligations.WatchpointOverlap := by
  intro s a a0 a1 len0 len1 hinv hin0 hlen0 hin1 hlen1 t
  have hs := hinv.watch_canonical
  have hset0 := setWatchpoint_canonical hs true false a0 len0
  have hset1 := setWatchpoint_canonical hset0 false true a1 len1
  have hcount (kind : AccessKind) := count_removeWatchpoint hset1 true false a0 a hlen0 kind
  simp only [count_setWatchpoint hset0 _ _ _ _ hlen1, count_setWatchpoint hs _ _ _ _ hlen0] at hcount
  have hread : t.watch.count .read a = s.watch.count .read a := by
    simpa [AccessKind.chosen, hin0, -BitVec.toNat_sub] using hcount .read
  have hwrite : t.watch.count .write a = s.watch.count .write a + 1 := by
    simpa [AccessKind.chosen, hin1, -BitVec.toNat_sub] using hcount .write
  refine ⟨hread, hwrite, fun v => ?_⟩
  rw [write8_watch]
  exact Watch.check_hit (by omega)

end Sys2Proof.Machine
end

section
/-! PROOFS. Bank switching: `setSlot` and the bank-switch rule (20_memory.md R99 to R101). -/

namespace Sys2Proof.Machine

variable {s : State} {cfg : Config}

/-- The pair test of 20_memory.md R99 in words: slot and bank exist, and the bank-set of the bank has the slot. -/
theorem pairAllowed_iff {slot b : Nat} : cfg.pairAllowed slot b = true ↔
    ∃ bank, slot < cfg.slots.length ∧ cfg.banks[b]? = some bank ∧ slot ∈ bank.slots := by
  cases hb : cfg.banks[b]? <;> simp [Config.pairAllowed, Config.bank?, hb]

/-- An accepted configuration's slots partition the addresses (00_scope.md R9). -/
theorem partitions_of_check (h : cfg.check = none) : Config.partitions 0 cfg.slots = true := by
  simp only [Config.check] at h
  split at h
  · contradiction
  · simp_all

theorem partitions_cons {start : Nat} {slot : Slot} {rest : List Slot} :
    Config.partitions start (slot :: rest) = true ↔
      slot.base = start ∧ 0 < slot.size ∧ Config.partitions (start + slot.size) rest = true := by
  simp [Config.partitions, and_assoc]

theorem start_le_base_of_partitions {start i : Nat} {table : List Slot} {place : Slot}
    (h : Config.partitions start table = true) (hi : table[i]? = some place) : start ≤ place.base := by
  induction table generalizing start i with
  | nil => simp at hi
  | cons slot rest ih =>
    obtain ⟨hbase, -, hrest⟩ := partitions_cons.mp h
    cases i with
    | zero => simp_all
    | succ i => exact Nat.le_trans (Nat.le_add_right _ _) (ih hrest hi)

/-- In a partition, the first slot that holds an address is any slot that holds it. -/
theorem findIdx?_of_partitions {start i a : Nat} {table : List Slot} {place : Slot}
    (h : Config.partitions start table = true) (hi : table[i]? = some place)
    (hlow : place.base ≤ a) (hhigh : a < place.base + place.size) :
    table.findIdx? (fun slot => decide (slot.base ≤ a) && decide (a < slot.base + slot.size)) = some i := by
  induction table generalizing start i with
  | nil => simp at hi
  | cons slot rest ih =>
    obtain ⟨hbase, -, hrest⟩ := partitions_cons.mp h
    cases i with
    | zero =>
      obtain rfl : slot = place := by simpa using hi
      simp [List.findIdx?_cons, hlow, hhigh]
    | succ i =>
      have hi' : rest[i]? = some place := hi
      have hpast := start_le_base_of_partitions hrest hi'
      simp [List.findIdx?_cons, ih hrest hi', show ¬ a < slot.base + slot.size by omega]

/-- Where an address of a slot is found, under a table that maps a bank there (20_memory.md R81). -/
theorem locate_of_slot (h : cfg.check = none) {slot b : Nat} {place : Slot} {bank : Bank} {table : List Nat} {a : Word}
    (hplace : cfg.slots[slot]? = some place) (hlow : place.base ≤ a.toNat) (hhigh : a.toNat < place.base + place.size)
    (htable : table[slot]? = some b) (hbank : cfg.banks[b]? = some bank) :
    locate cfg table a = some ⟨b, a.toNat - place.base, bank⟩ := by
  have hslot : slotOf cfg a = some slot := findIdx?_of_partitions (partitions_of_check h) hplace hlow hhigh
  simp [locate, hslot, hplace, htable, Config.bank?, hbank]

/-- Settles O46: the slots partition the addresses, so an address of the slot is found through the entry that was set. -/
theorem setSlot_spec : Obligations.SetSlot := by
  intro s slot b hinv
  constructor
  · intro place bank hplace hbank hmem
    obtain ⟨hslot, -⟩ := List.getElem?_eq_some_iff.mp hplace
    have hallowed : s.cfg.pairAllowed slot b = true := pairAllowed_iff.mpr ⟨bank, hslot, hbank, hmem⟩
    have hlen : s.slots.length = s.cfg.slots.length := by
      have htable := hinv.slots
      simp only [Config.tableAllowed, Bool.and_eq_true, beq_iff_eq] at htable
      exact htable.1
    have hentry : (s.slots.set slot b)[slot]? = some b := List.getElem?_set_self (by omega)
    refine ⟨_, if_pos hallowed, rfl, fun a hlow hhigh => ?_⟩
    have hlocate := locate_of_slot hinv.config hplace hlow hhigh hentry hbank
    exact peek_of_locate (s := (read8 a { s with slots := s.slots.set slot b }).2) hlocate
  · intro hnone
    refine if_neg fun hallowed => ?_
    obtain ⟨bank, hslot, hbank, hmem⟩ := pairAllowed_iff.mp hallowed
    exact hnone bank hbank hslot hmem

section

variable {rule : BankRule} (hrule : s.cfg.bankRule = some rule) {port : Word} (v : Byte)
include hrule

theorem applyBankRule_of_not_bound (h : port ∉ rule.ports) : applyBankRule port v s = s := by
  simp [applyBankRule, hrule, h]

variable (hport : port ∈ rule.ports)
include hport

theorem applyBankRule_of_allowed {assignments : List (Nat × Nat)} {script : List Byte}
    (hres : evalRule rule port v s.slots s.script = .ok assignments script)
    (h : ∀ pair ∈ assignments, s.cfg.pairAllowed pair.1 pair.2 = true) :
    applyBankRule port v s = { s with slots := assignSlots s.slots assignments, script := script } := by
  have hnone : assignments.find? (fun pair => !s.cfg.pairAllowed pair.1 pair.2) = none :=
    List.find?_eq_none.mpr fun pair hpair => by simp [h pair hpair]
  simp [applyBankRule, hrule, hport, hres, hnone]

theorem applyBankRule_of_rejected {assignments : List (Nat × Nat)} {script : List Byte} {pair : Nat × Nat}
    (hres : evalRule rule port v s.slots s.script = .ok assignments script)
    (hpair : pair ∈ assignments) (h : ¬ s.cfg.pairAllowed pair.1 pair.2 = true) :
    ∃ pair' ∈ assignments, ¬ s.cfg.pairAllowed pair'.1 pair'.2 = true ∧
      applyBankRule port v s = recordFailure (.bankSwitchRejected pair'.1 pair'.2 port) s := by
  cases hfound : assignments.find? (fun pair => !s.cfg.pairAllowed pair.1 pair.2) with
  | none => exact absurd (by simpa using h) (List.find?_eq_none.mp hfound pair hpair)
  | some first =>
    refine ⟨first, List.mem_of_find?_eq_some hfound, ?_, ?_⟩
    · simpa using List.find?_some hfound
    · simp [applyBankRule, hrule, hport, hres, hfound]

theorem applyBankRule_of_err {message : String} (hres : evalRule rule port v s.slots s.script = .err message) :
    applyBankRule port v s = recordFailure (.bankRuleError port message) s := by
  simp [applyBankRule, hrule, hport, hres]

theorem applyBankRule_of_timeout (hres : evalRule rule port v s.slots s.script = .timeout) :
    applyBankRule port v s = recordFailure (.bankRuleTimeout port) s := by
  simp [applyBankRule, hrule, hport, hres]

end

/-- Settles O47: the rule's answer decides; only an answer all of whose pairs pass the test touches the slot table. -/
theorem bankRuleAllOrNothing : Obligations.BankRuleAllOrNothing := by
  intro s port v rule hrule
  refine ⟨applyBankRule_of_not_bound hrule v, fun hport => ?_⟩
  cases hres : evalRule rule port v s.slots s.script with
  | ok assignments script =>
    constructor
    · intro hall
      exact applyBankRule_of_allowed hrule v hport hres fun pair hpair => pairAllowed_iff.mpr (hall pair hpair)
    · intro pair hpair hnot
      obtain ⟨first, hfirst, hrejected, hfailed⟩ :=
        applyBankRule_of_rejected hrule v hport hres hpair (mt pairAllowed_iff.mp hnot)
      exact ⟨first, hfirst, mt pairAllowed_iff.mpr hrejected, hfailed⟩
  | err message => exact applyBankRule_of_err hrule v hport hres
  | timeout => exact applyBankRule_of_timeout hrule v hport hres

end Sys2Proof.Machine
end

section
/-! PROOFS. The port dispatcher: which handlers an access runs, and what it leaves alone (20_memory.md R110 to R117). -/

namespace Sys2Proof.Machine

/-! ### Reads -/

/-- One generic read handler: it runs on the state the one before left, and its byte is combined with theirs
(20_memory.md R112). -/
def readStep (policy : PortPolicy) (port : Word) (r : Byte × State) (h : ReadHandler) : Byte × State :=
  (combineBytes policy r.1 (runRead port r.2 h).1, (runRead port r.2 h).2)

/-- The handlers change no configuration, so one policy combines all their bytes. -/
theorem readGenerics_eq_foldl (port : Word) (handlers : List ReadHandler) (acc : Byte) (s : State) :
    readGenerics port handlers acc s = handlers.foldl (readStep s.cfg.portPolicy port) (acc, s) := by
  induction handlers generalizing acc s with
  | nil => rfl
  | cons h rest ih =>
    have hcfg : (runRead port s h).2.cfg = s.cfg := (runRead_ports port s h).cfg
    simp only [readGenerics, ih, hcfg, List.foldl_cons, readStep]

/-- No specific handler of a table is at a port that the table does not name. -/
theorem find?_port_eq_none {α : Type} {table : List (Word × α)} {port : Word} (h : port ∉ table.map Prod.fst) :
    table.find? (fun entry => entry.1 == port) = none :=
  List.find?_eq_none.mpr fun entry hentry heq => h (List.mem_map.mpr ⟨entry, hentry, by simpa using heq⟩)

theorem portRead_of_no_specific {s : State} {port : Word} (h : port ∉ s.cfg.readSpecific.map Prod.fst) :
    portRead port s = s.cfg.readGeneric.foldl (readStep s.cfg.portPolicy port) (s.cfg.portIdle, s) := by
  simp only [portRead, find?_port_eq_none h, readGenerics_eq_foldl]

/-- A port read changes the peripheral state and the two ULA signals alone: a port access changes no more than the port
items, and a read keeps slots, script and failure. -/
theorem portRead_frame (port : Word) (s : State) :
    { (portRead port s).2 with
      periph := s.periph
      ula := { (portRead port s).2.ula with syncReq := s.ula.syncReq, nmiOn := s.ula.nmiOn } } = s := by
  obtain ⟨hcpu, hmem, hwatch, hactivity, htIns, hdraws, hothers⟩ := portRead_ports port s
  obtain ⟨hslots, hscript, hfailure⟩ := portRead_rest port s
  rw [OthersKeptButPorts, ← hcpu, ← hmem, ← hwatch, ← hactivity, ← htIns, ← hdraws, ← hslots, ← hscript,
    ← hfailure] at hothers
  exact hothers

/-- Settles O44: the specific handler's search is the first entry of the filtered table, and the generic handlers are
a fold. -/
theorem portReads : Obligations.PortReads := by
  intro s port combine idle events
  refine ⟨?_, fun _ => rfl, fun _ => rfl, rfl, fun _ => ⟨_, rfl⟩, ?_, ?_, portRead_frame port s⟩
  · rw [List.head?_filter, portRead, readGenerics_eq_foldl]
    rfl
  · intro hport hgeneric
    rw [portRead_of_no_specific hport, hgeneric]
    rfl
  · intro hport hgeneric
    rw [portRead_of_no_specific hport, hgeneric]
    cases hpolicy : s.cfg.portPolicy <;> simp [readStep, runRead, combineBytes, Config.portIdle, hpolicy]

/-! ### Writes -/

theorem writeGenerics_eq_foldl (port : Word) (v : Byte) (handlers : List WriteHandler) (s : State) :
    writeGenerics port v handlers s = handlers.foldl (runWrite port v) s := by
  induction handlers generalizing s with
  | nil => rfl
  | cons h rest ih => exact ih _

/-- The specific write handler of a port, as a list of none or one (20_memory.md R115). -/
def specificWrite (cfg : Config) (port : Word) : List WriteHandler :=
  (cfg.writeSpecific.filter (fun entry => entry.1 == port)).head?.toList.map Prod.snd

theorem portWrite_eq_foldl (port : Word) (v : Byte) (s : State) :
    portWrite port v s = (specificWrite s.cfg port ++ s.cfg.writeGeneric).foldl (runWrite port v) s := by
  rw [specificWrite, List.head?_filter]
  cases hfind : s.cfg.writeSpecific.find? (fun entry => entry.1 == port) with
  | none => simp [portWrite, hfind, writeGenerics_eq_foldl]
  | some entry =>
    have hcfg : (runWrite port v s entry.2).cfg = s.cfg := (runWrite_ports port v s entry.2).cfg
    simp [portWrite, hfind, writeGenerics_eq_foldl, hcfg]

/-- The first failure is kept (60_exceptions.md R503). -/
theorem recordFailure_failure {s : State} {f : Failure} (g : Failure) (h : s.failure = some f) :
    (recordFailure g s).failure = some f := by
  simp [recordFailure, h]

theorem applyBankRule_failure (port : Word) (v : Byte) {s : State} {f : Failure} (h : s.failure = some f) :
    (applyBankRule port v s).failure = some f := by
  unfold applyBankRule
  split
  · exact h
  · split
    · split
      · split
        · exact recordFailure_failure _ h
        · exact h
      · exact recordFailure_failure _ h
      · exact recordFailure_failure _ h
    · exact h

/-- A device changes the peripheral state, or fails with its port named (20_memory.md R117). -/
theorem runWrite_device (port : Word) (v : Byte) (s : State) (id : Nat) :
    (∃ periph, runWrite port v s (.device id) = { s with periph := periph }) ∨
      ∃ message, runWrite port v s (.device id) = recordFailure (.handlerError port message) s := by
  simp only [runWrite]
  split
  · exact .inl ⟨_, rfl⟩
  · exact .inr ⟨_, rfl⟩

theorem runWrite_failure (port : Word) (v : Byte) (handler : WriteHandler) {s : State} {f : Failure}
    (h : s.failure = some f) : (runWrite port v s handler).failure = some f := by
  cases handler with
  | record => exact h
  | ula => exact h
  | bankRule => exact applyBankRule_failure port v h
  | device id =>
    obtain ⟨_, hdone⟩ | ⟨_, hfailed⟩ := runWrite_device port v s id
    · rw [hdone]
      exact h
    · rw [hfailed]
      exact recordFailure_failure _ h

theorem foldl_runWrite_failure (port : Word) (v : Byte) (handlers : List WriteHandler) {s : State} {f : Failure}
    (h : s.failure = some f) : (handlers.foldl (runWrite port v) s).failure = some f := by
  induction handlers generalizing s with
  | nil => exact h
  | cons handler rest ih => exact ih (runWrite_failure port v handler h)

/-- Settles O45: the write is a fold over the specific handler and the generic ones, and no handler loses a failure. -/
theorem portWrites : Obligations.PortWrites := by
  intro s port v specific t
  have hfold : t = (specific ++ s.cfg.writeGeneric).foldl (runWrite port v) s := portWrite_eq_foldl port v s
  obtain ⟨hcpu, hmem, hwatch, hactivity, -⟩ := portWrite_ports port v s
  refine ⟨hfold, ?_, hcpu, hmem, hwatch, hactivity, ?_, rfl, ?_, runWrite_device port v s⟩
  · intro hspecific hgeneric
    rw [hfold, hspecific, hgeneric]
    rfl
  · intro f hf
    rw [hfold]
    exact foldl_runWrite_failure port v _ hf
  · rw [BitVec.setWidth_ushiftRight_eq_extractLsb]
    rfl

end Sys2Proof.Machine
end

section
/-! PROOFS. The opcode tables agree with the encoder: what the decoder accepts is an encoding (30_encoding.md R142, R146,
R157, R160). -/

namespace Sys2Proof

/-! ### A field that names an operand holds the operand's code (30_encoding.md R143, R144) -/

theorem Reg8.code_of_ofCode {n : Nat} {r : Reg8} (h : Reg8.ofCode n = some r) : r.code = n := by
  unfold Reg8.ofCode at h; split at h <;> cases h <;> rfl

theorem Reg16.code_of_ofCode {n : Nat} {r : Reg16} (h : Reg16.ofCode n = some r) : r.code = n := by
  unfold Reg16.ofCode at h; split at h <;> cases h <;> rfl

theorem Reg16AF.code_of_ofCode {n : Nat} {r : Reg16AF} (h : Reg16AF.ofCode n = some r) : r.code = n := by
  unfold Reg16AF.ofCode at h; split at h <;> cases h <;> rfl

theorem Reg16IX.code_of_ofCode {n : Nat} {r : Reg16IX} (h : Reg16IX.ofCode n = some r) : r.code = n := by
  unfold Reg16IX.ofCode at h; split at h <;> cases h <;> rfl

theorem Reg16IY.code_of_ofCode {n : Nat} {r : Reg16IY} (h : Reg16IY.ofCode n = some r) : r.code = n := by
  unfold Reg16IY.ofCode at h; split at h <;> cases h <;> rfl

theorem Cond.code_of_ofCode {n : Nat} {cc : Cond} (h : Cond.ofCode n = some cc) : cc.code = n := by
  unfold Cond.ofCode at h; split at h <;> cases h <;> rfl

/-! ### An opcode byte is its fixed bits and its fields (30_encoding.md R142) -/

theorem opByte_field53 : ∀ op : Byte, opByte ((op &&& 0xC7#8).toNat + 8 * field op 5 3) = op := by decide

theorem opByte_field20 : ∀ op : Byte, opByte ((op &&& 0xF8#8).toNat + field op 2 0) = op := by decide

theorem opByte_field54 : ∀ op : Byte, opByte ((op &&& 0xCF#8).toNat + 16 * field op 5 4) = op := by decide

theorem opByte_field53_field20 :
    ∀ op : Byte, opByte ((op &&& 0xC0#8).toNat + 8 * field op 5 3 + field op 2 0) = op := by decide

theorem or_restart_bits :
    ∀ op : Byte, op &&& 0xC7#8 ||| ((op &&& 0x38#8).setWidth 16).setWidth 8 = op := by decide

theorem bitNumberOk_field53 (op : Byte) : bitNumberOk (field op 5 3) = true :=
  decide_eq_true (Nat.mod_lt _ (by decide))

theorem restartOk_restart_bits : ∀ op : Byte, restartOk ((op &&& 0x38#8).setWidth 16) = true := by decide

/-! ### The rows of a table -/

/-- What a row answers for an opcode byte has the property. -/
def Row.Ensures {α : Type} (P : Byte → α → Prop) (row : Row α) : Prop :=
  ∀ op a, row.read op = some a → P op a

section
variable {α : Type} {P : Byte → α → Prop} {rows : List (Row α)} {mask pattern : Byte}

theorem Row.read_eq_some {row : Row α} {op : Byte} {a : α} :
    row.read op = some a ↔ op &&& row.mask = row.pattern ∧ row.make op = some a := by
  simp [Row.read]

theorem lookup_ensures (h : ∀ row ∈ rows, row.Ensures P) {op : Byte} {a : α} (ha : lookup rows op = some a) :
    P op a := by
  obtain ⟨row, hrow, hread⟩ := List.exists_of_findSome?_eq_some ha
  exact h row hrow op a hread

/-- The property of a row whose fields select one operand, from the property at each operand's opcode byte. -/
theorem Row.ensures_operand {κ : Type} {operand : Byte → Option κ} {value : κ → Nat} {make : κ → α}
    (hvalue : ∀ op k, operand op = some k → opByte ((op &&& mask).toNat + value k) = op)
    (h : ∀ k, P (opByte (pattern.toNat + value k)) (make k)) :
    Row.Ensures P ⟨mask, pattern, fun op => (operand op).bind fun k => some (make k)⟩ := by
  intro op a hread
  simp only [Row.read_eq_some, Option.bind_eq_some_iff, Option.some.injEq] at hread
  obtain ⟨rfl, k, hk, rfl⟩ := hread
  simpa only [hvalue op k hk] using h k

/-- The property of a row without a refused field, from the property at each opcode byte put together again. -/
theorem Row.ensures_total {byte : Byte → Byte} {make : Byte → α}
    (hbyte : ∀ op, op &&& mask = pattern → byte op = op) (h : ∀ op, P (byte op) (make op)) :
    Row.Ensures P ⟨mask, pattern, fun op => some (make op)⟩ := by
  intro op a hread
  simp only [Row.read_eq_some, Option.some.injEq] at hread
  obtain ⟨hop, rfl⟩ := hread
  simpa only [hbyte op hop] using h op

/-- The forms of a row: which operands the fields of its opcode byte select. In each, the property is asked at the
opcode byte put together from the pattern and the operands' codes, as `encode` writes it. -/
inductive Row.Form (P : Byte → α → Prop) : Row α → Prop
  | fixed {p : Byte} {a : α} (word : P p a) : Form P ⟨0xFF#8, p, fun _ => some a⟩
  | reg8Dst {p : Byte} {make : Reg8 → α} (word : ∀ r, P (opByte (p.toNat + 8 * r.code)) (make r)) :
      Form P ⟨0xC7#8, p, fun op => (Reg8.ofCode (field op 5 3)).bind fun r => some (make r)⟩
  | reg8Src {p : Byte} {make : Reg8 → α} (word : ∀ r, P (opByte (p.toNat + r.code)) (make r)) :
      Form P ⟨0xF8#8, p, fun op => (Reg8.ofCode (field op 2 0)).bind fun r => some (make r)⟩
  | reg8Both {p : Byte} {make : Reg8 → Reg8 → α}
      (word : ∀ r r', P (opByte (p.toNat + 8 * r.code + r'.code)) (make r r')) :
      Form P ⟨0xC0#8, p, fun op => (Reg8.ofCode (field op 5 3)).bind fun r =>
        (Reg8.ofCode (field op 2 0)).bind fun r' => some (make r r')⟩
  | cond {p : Byte} {make : Cond → α} (word : ∀ cc, P (opByte (p.toNat + 8 * cc.code)) (make cc)) :
      Form P ⟨0xC7#8, p, fun op => (Cond.ofCode (field op 5 3)).bind fun cc => some (make cc)⟩
  | reg16 {p : Byte} {make : Reg16 → α} (word : ∀ r, P (opByte (p.toNat + 16 * r.code)) (make r)) :
      Form P ⟨0xCF#8, p, fun op => (Reg16.ofCode (field op 5 4)).bind fun r => some (make r)⟩
  | reg16AF {p : Byte} {make : Reg16AF → α} (word : ∀ r, P (opByte (p.toNat + 16 * r.code)) (make r)) :
      Form P ⟨0xCF#8, p, fun op => (Reg16AF.ofCode (field op 5 4)).bind fun r => some (make r)⟩
  | reg16IX {p : Byte} {make : Reg16IX → α} (word : ∀ r, P (opByte (p.toNat + 16 * r.code)) (make r)) :
      Form P ⟨0xCF#8, p, fun op => (Reg16IX.ofCode (field op 5 4)).bind fun r => some (make r)⟩
  | reg16IY {p : Byte} {make : Reg16IY → α} (word : ∀ r, P (opByte (p.toNat + 16 * r.code)) (make r)) :
      Form P ⟨0xCF#8, p, fun op => (Reg16IY.ofCode (field op 5 4)).bind fun r => some (make r)⟩
  | restart {make : Byte → α} (word : ∀ op, P (0xC7#8 ||| ((op &&& 0x38#8).setWidth 16).setWidth 8) (make op)) :
      Form P ⟨0xC7#8, 0xC7#8, fun op => some (make op)⟩
  | bit {p : Byte} {make : Byte → α} (word : ∀ op, P (opByte (p.toNat + 8 * field op 5 3)) (make op)) :
      Form P ⟨0xC7#8, p, fun op => some (make op)⟩
  | bitReg8 {p : Byte} {make : Byte → Reg8 → α}
      (word : ∀ op r, P (opByte (p.toNat + 8 * field op 5 3 + r.code)) (make op r)) :
      Form P ⟨0xC0#8, p, fun op => (Reg8.ofCode (field op 2 0)).bind fun r => some (make op r)⟩

/-- A row of one of the forms has the property at every opcode byte it answers for. -/
theorem Row.Form.ensures {row : Row α} (h : row.Form P) : row.Ensures P := by
  cases h with
  | fixed h => exact Row.ensures_total (fun op hop => hop.symm.trans BitVec.and_allOnes) fun _ => h
  | reg8Dst h =>
    exact Row.ensures_operand (fun op r hr => by rw [Reg8.code_of_ofCode hr, opByte_field53]) h
  | reg8Src h =>
    exact Row.ensures_operand (fun op r hr => by rw [Reg8.code_of_ofCode hr, opByte_field20]) h
  | reg8Both h =>
    intro op a hread
    simp only [Row.read_eq_some, Option.bind_eq_some_iff, Option.some.injEq] at hread
    obtain ⟨rfl, r, hr, r', hr', rfl⟩ := hread
    simpa only [Reg8.code_of_ofCode hr, Reg8.code_of_ofCode hr', opByte_field53_field20] using h r r'
  | cond h =>
    exact Row.ensures_operand (fun op r hr => by rw [Cond.code_of_ofCode hr, opByte_field53]) h
  | reg16 h =>
    exact Row.ensures_operand (fun op r hr => by rw [Reg16.code_of_ofCode hr, opByte_field54]) h
  | reg16AF h =>
    exact Row.ensures_operand (fun op r hr => by rw [Reg16AF.code_of_ofCode hr, opByte_field54]) h
  | reg16IX h =>
    exact Row.ensures_operand (fun op r hr => by rw [Reg16IX.code_of_ofCode hr, opByte_field54]) h
  | reg16IY h =>
    exact Row.ensures_operand (fun op r hr => by rw [Reg16IY.code_of_ofCode hr, opByte_field54]) h
  | restart h => exact Row.ensures_total (fun op hop => by rw [← hop, or_restart_bits]) h
  | bit h => exact Row.ensures_total (fun op hop => by rw [← hop, opByte_field53]) h
  | bitReg8 h =>
    intro op a hread
    simp only [Row.read_eq_some, Option.bind_eq_some_iff, Option.some.injEq] at hread
    obtain ⟨rfl, r, hr, rfl⟩ := hread
    simpa only [Reg8.code_of_ofCode hr, opByte_field53_field20] using h op r

end

/-! ### The tables agree with the encoder -/

/-- The instruction is well formed, and these are its bytes. -/
def EncodedAs (i : Instr) (bytes : List Byte) : Prop := i.wf = true ∧ encode i = bytes

theorem EncodedAs.append {i : Instr} {bytes : List Byte} (h : EncodedAs i bytes) (rest : List Byte) :
    i.wf = true ∧ bytes ++ rest = encode i ++ rest :=
  ⟨h.1, by rw [h.2]⟩

/-- With every value of its operand bytes, the shape is an instruction encoded as `seen` and those bytes. -/
def Shape.Encodes (seen : List Byte) : Shape → Prop
  | .done i => EncodedAs i seen
  | .byte f => ∀ n, EncodedAs (f n) (seen ++ [n])
  | .word f => ∀ nn, EncodedAs (f nn) (seen ++ [loByte nn, hiByte nn])
  | .dispByte f => ∀ disp n, EncodedAs (f disp n) (seen ++ [disp, n])

/-- Every row of the seven tables answers instructions whose encoding is the word that selects the row
(30_encoding.md R147 to R149, R153, R154). -/
structure TablesEncode : Prop where
  main : ∀ row ∈ mainRows, row.Form fun op => Shape.Encodes [op]
  cb : ∀ row ∈ cbRows, row.Form fun op => Shape.Encodes [0xCB#8, op]
  ed : ∀ row ∈ edRows, row.Form fun op => Shape.Encodes [0xED#8, op]
  dd : ∀ row ∈ ddRows, row.Form fun op => Shape.Encodes [0xDD#8, op]
  fd : ∀ row ∈ fdRows, row.Form fun op => Shape.Encodes [0xFD#8, op]
  ddcb : ∀ row ∈ ddcbRows, row.Form fun op f => ∀ disp, EncodedAs (f disp) [0xDD#8, 0xCB#8, disp, op]
  fdcb : ∀ row ∈ fdcbRows, row.Form fun op f => ∀ disp, EncodedAs (f disp) [0xFD#8, 0xCB#8, disp, op]

/-- Each row has one of the forms; at the opcode byte put together from the fields, `encode` gives the same bytes by
definition, and only bit numbers and restart targets have to be checked for being well formed. -/
theorem tablesEncode : TablesEncode := by
  constructor
  all_goals
    simp only [mainRows, cbRows, edRows, ddRows, fdRows, ddcbRows, fdcbRows, List.forall_mem_append,
      List.forall_mem_cons, List.not_mem_nil, false_implies, implies_true]
    repeat' constructor
  all_goals repeat' intro
  all_goals refine ⟨?_, rfl⟩
  any_goals rfl
  any_goals apply bitNumberOk_field53
  exact restartOk_restart_bits _

/-! ### What the decoder accepts (30_encoding.md R156, R160) -/

variable {rows : List (Row Shape)} {seen lead bytes rest tail : List Byte} {op : Byte} {shape : Shape} {i : Instr}

theorem Shape.Encodes.finish (h : shape.Encodes seen) (hf : shape.finish bytes = .ok (i, rest)) :
    i.wf = true ∧ seen ++ bytes = encode i ++ rest := by
  unfold Shape.finish at hf
  split at hf <;> cases hf
  · exact h.append _
  · next f n => simpa using (h n).append rest
  · next f nl nh => simpa using (h (wordOf nh nl)).append rest
  · next f disp n => simpa using (h disp n).append rest

theorem decodeOp_encoded (hrows : ∀ row ∈ rows, row.Form fun op => Shape.Encodes (lead ++ [op]))
    (h : decodeOp rows seen op bytes = .ok (i, rest)) : i.wf = true ∧ lead ++ op :: bytes = encode i ++ rest := by
  unfold decodeOp at h
  split at h
  · next shape hshape =>
    have hencoded := lookup_ensures (fun row hrow => (hrows row hrow).ensures) hshape
    simpa using hencoded.finish h
  · cases h

theorem decodeIndexed_encoded {cbs : List (Row (Byte → Instr))} {b1 : Byte}
    (hrows : ∀ row ∈ rows, row.Form fun op => Shape.Encodes [b1, op])
    (hcbs : ∀ row ∈ cbs, row.Form fun op f => ∀ disp, EncodedAs (f disp) [b1, 0xCB#8, disp, op])
    (h : decodeIndexed rows cbs b1 bytes = .ok (i, rest)) : i.wf = true ∧ b1 :: bytes = encode i ++ rest := by
  unfold decodeIndexed at h
  split at h
  · cases h
  · split at h
    · next hcb =>
      subst hcb
      split at h
      · next disp op _ =>
        split at h
        · next f hf =>
          have hencoded := lookup_ensures (fun row hrow => (hcbs row hrow).ensures) hf disp
          cases h
          exact hencoded.append rest
        · cases h
      · cases h
    · exact decodeOp_encoded (lead := [b1]) hrows h

/-- The byte of each page but the main one (30_encoding.md R140). -/
theorem Page.of_cases (b : Byte) :
    Page.of b = .main ∨ (Page.of b = .cb ∧ b = 0xCB#8) ∨ (Page.of b = .dd ∧ b = 0xDD#8) ∨
      (Page.of b = .ed ∧ b = 0xED#8) ∨ (Page.of b = .fd ∧ b = 0xFD#8) := by
  unfold Page.of
  split_ifs <;> simp [*]

theorem decode_of_main {b1 : Byte} (h : Page.of b1 = .main) :
    decode (b1 :: bytes) = decodeOp mainRows [b1] b1 bytes := by
  simp only [decode, h]

/-- Settles O6: each table's rows agree with the encoder, and the operand bytes are taken as the encoder lays them. -/
theorem encodeOfDecode : Obligations.EncodeOfDecode := by
  intro bytes rest i h
  obtain _ | ⟨b1, bytes⟩ := bytes
  · cases h
  · obtain hmain | ⟨-, rfl⟩ | ⟨-, rfl⟩ | ⟨-, rfl⟩ | ⟨-, rfl⟩ := Page.of_cases b1
    · exact decodeOp_encoded (lead := []) tablesEncode.main (decode_of_main hmain ▸ h)
    · obtain _ | ⟨b2, bytes⟩ := bytes
      · cases h
      · exact decodeOp_encoded (lead := [0xCB#8]) tablesEncode.cb h
    · exact decodeIndexed_encoded tablesEncode.dd tablesEncode.ddcb h
    · obtain _ | ⟨b2, bytes⟩ := bytes
      · cases h
      · exact decodeOp_encoded (lead := [0xED#8]) tablesEncode.ed h
    · exact decodeIndexed_encoded tablesEncode.fd tablesEncode.fdcb h

end Sys2Proof
end

section
/-! PROOFS. The decoder reads an encoding back, and how many bytes it needs (30_encoding.md R141, R155, R156). -/

namespace Sys2Proof

variable {rows : List (Row Shape)} {seen bytes tail : List Byte} {op : Byte} {i : Instr}

open Laws.RoundTrip in
/-- The laws of the single instructions, together. -/
theorem decode_encode : ∀ i : Instr, Statement i
  | .ldRR dst src => ldRR dst src | .ldRN dst n => ldRN dst n | .ldRAtHL dst => ldRAtHL dst
  | .ldRAtIX dst disp => ldRAtIX dst disp | .ldRAtIY dst disp => ldRAtIY dst disp
  | .ldAtHLR src => ldAtHLR src | .ldAtIXR disp src => ldAtIXR disp src
  | .ldAtIYR disp src => ldAtIYR disp src | .ldAtHLN n => ldAtHLN n | .ldAtIXN disp n => ldAtIXN disp n
  | .ldAtIYN disp n => ldAtIYN disp n | .ldAAtBC => ldAAtBC | .ldAAtDE => ldAAtDE
  | .ldAAtNN nn => ldAAtNN nn | .ldAtBCA => ldAtBCA | .ldAtDEA => ldAtDEA | .ldAtNNA nn => ldAtNNA nn
  | .ldAI => ldAI | .ldARefresh => ldARefresh | .ldIA => ldIA | .ldRefreshA => ldRefreshA
  | .ldDDNN dd nn => ldDDNN dd nn | .ldIXNN nn => ldIXNN nn | .ldIYNN nn => ldIYNN nn
  | .ldHLAtNN nn => ldHLAtNN nn | .ldDDAtNN dd nn => ldDDAtNN dd nn | .ldIXAtNN nn => ldIXAtNN nn
  | .ldIYAtNN nn => ldIYAtNN nn | .ldAtNNHL nn => ldAtNNHL nn | .ldAtNNDD nn dd => ldAtNNDD nn dd
  | .ldAtNNIX nn => ldAtNNIX nn | .ldAtNNIY nn => ldAtNNIY nn | .ldSPHL => ldSPHL | .ldSPIX => ldSPIX
  | .ldSPIY => ldSPIY | .pushQQ qq => pushQQ qq | .pushIX => pushIX | .pushIY => pushIY
  | .popQQ qq => popQQ qq | .popIX => popIX | .popIY => popIY | .exDEHL => exDEHL | .exAFAF => exAFAF
  | .exx => exx | .exAtSPHL => exAtSPHL | .exAtSPIX => exAtSPIX | .exAtSPIY => exAtSPIY | .ldi => ldi
  | .ldir => ldir | .ldd => ldd | .lddr => lddr | .cpi => cpi | .cpir => cpir | .cpd => cpd | .cpdr => cpdr
  | .addAR src => addAR src | .addAN n => addAN n | .addAAtHL => addAAtHL | .addAAtIX disp => addAAtIX disp
  | .addAAtIY disp => addAAtIY disp | .adcAR src => adcAR src | .adcAN n => adcAN n | .adcAAtHL => adcAAtHL
  | .adcAAtIX disp => adcAAtIX disp | .adcAAtIY disp => adcAAtIY disp | .subR src => subR src
  | .subN n => subN n | .subAtHL => subAtHL | .subAtIX disp => subAtIX disp | .subAtIY disp => subAtIY disp
  | .sbcAR src => sbcAR src | .sbcAN n => sbcAN n | .sbcAAtHL => sbcAAtHL | .sbcAAtIX disp => sbcAAtIX disp
  | .sbcAAtIY disp => sbcAAtIY disp | .andR src => andR src | .andN n => andN n | .andAtHL => andAtHL
  | .andAtIX disp => andAtIX disp | .andAtIY disp => andAtIY disp | .orR src => orR src | .orN n => orN n
  | .orAtHL => orAtHL | .orAtIX disp => orAtIX disp | .orAtIY disp => orAtIY disp | .xorR src => xorR src
  | .xorN n => xorN n | .xorAtHL => xorAtHL | .xorAtIX disp => xorAtIX disp | .xorAtIY disp => xorAtIY disp
  | .cpR src => cpR src | .cpN n => cpN n | .cpAtHL => cpAtHL | .cpAtIX disp => cpAtIX disp
  | .cpAtIY disp => cpAtIY disp | .incR dst => incR dst | .incAtHL => incAtHL
  | .incAtIX disp => incAtIX disp | .incAtIY disp => incAtIY disp | .decR dst => decR dst
  | .decAtHL => decAtHL | .decAtIX disp => decAtIX disp | .decAtIY disp => decAtIY disp | .daa => daa
  | .cpl => cpl | .neg => neg | .ccf => ccf | .scf => scf | .nop => nop | .halt => halt | .di => di
  | .ei => ei | .im0 => im0 | .im1 => im1 | .im2 => im2 | .addHLSS ss => addHLSS ss
  | .adcHLSS ss => adcHLSS ss | .sbcHLSS ss => sbcHLSS ss | .addIXPP pp => addIXPP pp
  | .addIYRR rr => addIYRR rr | .incSS ss => incSS ss | .incIX => incIX | .incIY => incIY
  | .decSS ss => decSS ss | .decIX => decIX | .decIY => decIY | .rlca => rlca | .rla => rla | .rrca => rrca
  | .rra => rra | .rlcR dst => rlcR dst | .rlcAtHL => rlcAtHL | .rlcAtIX disp => rlcAtIX disp
  | .rlcAtIY disp => rlcAtIY disp | .rlR dst => rlR dst | .rlAtHL => rlAtHL | .rlAtIX disp => rlAtIX disp
  | .rlAtIY disp => rlAtIY disp | .rrcR dst => rrcR dst | .rrcAtHL => rrcAtHL
  | .rrcAtIX disp => rrcAtIX disp | .rrcAtIY disp => rrcAtIY disp | .rrR dst => rrR dst | .rrAtHL => rrAtHL
  | .rrAtIX disp => rrAtIX disp | .rrAtIY disp => rrAtIY disp | .slaR dst => slaR dst | .slaAtHL => slaAtHL
  | .slaAtIX disp => slaAtIX disp | .slaAtIY disp => slaAtIY disp | .sraR dst => sraR dst
  | .sraAtHL => sraAtHL | .sraAtIX disp => sraAtIX disp | .sraAtIY disp => sraAtIY disp
  | .srlR dst => srlR dst | .srlAtHL => srlAtHL | .srlAtIX disp => srlAtIX disp
  | .srlAtIY disp => srlAtIY disp | .rld => rld | .rrd => rrd | .bitBR bit src => bitBR bit src
  | .bitBAtHL bit => bitBAtHL bit | .bitBAtIX bit disp => bitBAtIX bit disp
  | .bitBAtIY bit disp => bitBAtIY bit disp | .setBR bit dst => setBR bit dst
  | .setBAtHL bit => setBAtHL bit | .setBAtIX bit disp => setBAtIX bit disp
  | .setBAtIY bit disp => setBAtIY bit disp | .resBR bit dst => resBR bit dst
  | .resBAtHL bit => resBAtHL bit | .resBAtIX bit disp => resBAtIX bit disp
  | .resBAtIY bit disp => resBAtIY bit disp | .jpNN nn => jpNN nn | .jpCCNN cc nn => jpCCNN cc nn
  | .jr e => jr e | .jrC e => jrC e | .jrNC e => jrNC e | .jrZ e => jrZ e | .jrNZ e => jrNZ e
  | .jpHL => jpHL | .jpIX => jpIX | .jpIY => jpIY | .djnz e => djnz e | .callNN nn => callNN nn
  | .callCCNN cc nn => callCCNN cc nn | .ret => ret | .retCC cc => retCC cc | .reti => reti | .retn => retn
  | .rst target => rst target | .inAN n => inAN n | .inRC dst => inRC dst | .ini => ini | .inir => inir
  | .ind => ind | .indr => indr | .outNA n => outNA n | .outCR src => outCR src | .outi => outi
  | .otir => otir | .outd => outd | .otdr => otdr

/-! ### Bytes after an instruction are left over, or not yet read (30_encoding.md R141, R156) -/

/-- The bytes left over by a decoded instruction are followed by more. -/
def leaveMore (tail : List Byte) (r : Except Reject (Instr × List Byte)) : Except Reject (Instr × List Byte) :=
  r.map fun (i, rest) => (i, rest ++ tail)

theorem Shape.finish_append {shape : Shape} (h : shape.finish bytes ≠ .error .truncated) :
    shape.finish (bytes ++ tail) = leaveMore tail (shape.finish bytes) := by
  unfold Shape.finish at h ⊢
  split at h <;> simp_all [leaveMore, Except.map]

theorem decodeOp_append (h : decodeOp rows seen op bytes ≠ .error .truncated) :
    decodeOp rows seen op (bytes ++ tail) = leaveMore tail (decodeOp rows seen op bytes) := by
  unfold decodeOp at h ⊢
  split at h
  · exact Shape.finish_append h
  · rfl

theorem decodeIndexed_append {cbs : List (Row (Byte → Instr))} {lead : Byte}
    (h : decodeIndexed rows cbs lead bytes ≠ .error .truncated) :
    decodeIndexed rows cbs lead (bytes ++ tail) = leaveMore tail (decodeIndexed rows cbs lead bytes) := by
  obtain _ | ⟨b2, bytes⟩ := bytes
  · exact absurd rfl h
  · by_cases hb2 : b2 = 0xCB#8
    · obtain _ | ⟨disp, _ | ⟨op, bytes⟩⟩ := bytes
      · simp [decodeIndexed, hb2] at h
      · simp [decodeIndexed, hb2] at h
      · simp only [decodeIndexed, hb2, List.cons_append, if_true]
        split <;> rfl
    · simp only [decodeIndexed, hb2, List.cons_append, if_false] at h ⊢
      exact decodeOp_append h

/-- More bytes change nothing once the decoder has enough. -/
theorem decode_append (h : decode bytes ≠ .error .truncated) :
    decode (bytes ++ tail) = leaveMore tail (decode bytes) := by
  obtain _ | ⟨b1, bytes⟩ := bytes
  · exact absurd rfl h
  · obtain hmain | ⟨-, rfl⟩ | ⟨-, rfl⟩ | ⟨-, rfl⟩ | ⟨-, rfl⟩ := Page.of_cases b1
    · simp only [List.cons_append, decode_of_main hmain] at h ⊢
      exact decodeOp_append h
    · obtain _ | ⟨b2, bytes⟩ := bytes
      · exact absurd rfl h
      · exact decodeOp_append h
    · exact decodeIndexed_append h
    · obtain _ | ⟨b2, bytes⟩ := bytes
      · exact absurd rfl h
      · exact decodeOp_append h
    · exact decodeIndexed_append h

/-- Settles O5: each instruction's own bytes decode to it, and the bytes after them are left over. -/
theorem decodeOfEncode : Obligations.DecodeOfEncode := by
  intro i rest hwf
  have hown : decode (encode i) = .ok (i, []) := decode_encode i hwf
  rw [decode_append (by simp [hown]), hown]
  rfl

/-- Settles O4: the decoder, run on each word. -/
theorem decodeWords : Obligations.DecodeWords := fun _ =>
  ⟨rfl, rfl, rfl, rfl, rfl, rfl, rfl, rfl, rfl, rfl, rfl, rfl, rfl, rfl, rfl⟩

/-! ### How many bytes are fetched (30_encoding.md R140, R156; 60_exceptions.md R501) -/

/-- The bytes `seen` are all the decoder needs: an instruction that leaves none over, or a refusal of just those. -/
def Decides (seen : List Byte) (r : Except Reject (Instr × List Byte)) : Prop :=
  r = .error (.unknownEncoding seen) ∨ ∃ i, r = .ok (i, [])

theorem operandCount_le (rows : List (Row Shape)) (op : Byte) : operandCount rows op ≤ 2 := by
  unfold operandCount
  cases lookup rows op with
  | none => exact Nat.zero_le 2
  | some shape => cases shape <;> simp [Shape.operands]

theorem operandCount_cbRows : ∀ op : Byte, operandCount cbRows op = 0 := by decide

theorem Shape.finish_operands {shape : Shape} {bytes : List Byte} (h : bytes.length = shape.operands) :
    ∃ i, shape.finish bytes = .ok (i, []) :=
  match shape, bytes, h with
  | .done i, [], _ => ⟨i, rfl⟩
  | .byte f, [n], _ => ⟨f n, rfl⟩
  | .word f, [nl, nh], _ => ⟨f (wordOf nh nl), rfl⟩
  | .dispByte f, [disp, n], _ => ⟨f disp n, rfl⟩

theorem decodeOp_decides (h : operandCount rows op ≤ bytes.length) :
    Decides (seen ++ bytes.take (operandCount rows op))
      (decodeOp rows seen op (bytes.take (operandCount rows op))) := by
  unfold decodeOp
  cases hshape : lookup rows op with
  | none => exact .inl (by simp [operandCount, hshape])
  | some shape => exact .inr (Shape.finish_operands (by simpa [operandCount, hshape] using h))

theorem decodeIndexed_decides {cbs : List (Row (Byte → Instr))} {lead b2 b3 b4 : Byte} :
    let own := (b2 :: b3 :: b4 :: tail).take (if b2 = 0xCB#8 then 3 else operandCount rows b2 + 1)
    Decides (lead :: own) (decodeIndexed rows cbs lead own) := by
  by_cases hb2 : b2 = 0xCB#8
  · simp only [hb2, if_true, List.take_succ_cons, List.take_zero, decodeIndexed]
    cases lookup cbs b4 with
    | none => exact .inl rfl
    | some f => exact .inr ⟨f b3, rfl⟩
  · have hcount := operandCount_le rows b2
    simp only [if_neg hb2, List.take_succ_cons, decodeIndexed]
    exact decodeOp_decides (by simp; omega)

/-- The first `instrLength` bytes are all the decoder needs. -/
theorem decode_decides (b1 b2 b3 b4 : Byte) (tail : List Byte) :
    let own := (b1 :: b2 :: b3 :: b4 :: tail).take (instrLength b1 b2)
    Decides own (decode own) := by
  have hindexed (rows) : (if b2 = 0xCB#8 then 4 else 2 + operandCount rows b2) =
      (if b2 = 0xCB#8 then 3 else operandCount rows b2 + 1) + 1 := by split <;> omega
  obtain hmain | ⟨hpage, rfl⟩ | ⟨hpage, rfl⟩ | ⟨hpage, rfl⟩ | ⟨hpage, rfl⟩ := Page.of_cases b1
  · have hcount := operandCount_le mainRows b1
    simp only [instrLength, hmain, Nat.add_comm 1, List.take_succ_cons, decode_of_main hmain]
    exact decodeOp_decides (by simp; omega)
  · have hcount := operandCount_cbRows b2
    simp only [instrLength, hpage, List.take_succ_cons, List.take_zero, decode]
    simpa [hcount] using decodeOp_decides (rows := cbRows) (seen := [0xCB#8, b2]) (op := b2) (bytes := [])
  · simp only [instrLength, hpage, hindexed, List.take_succ_cons, decode]
    exact decodeIndexed_decides
  · have hcount := operandCount_le edRows b2
    simp only [instrLength, hpage, Nat.add_comm 2, List.take_succ_cons, decode]
    exact decodeOp_decides (by simp; omega)
  · simp only [instrLength, hpage, hindexed, List.take_succ_cons, decode]
    exact decodeIndexed_decides

theorem instrLength_le (b1 b2 : Byte) : instrLength b1 b2 ≤ 4 := by
  have hmain := operandCount_le mainRows b1
  have hed := operandCount_le edRows b2
  have hdd := operandCount_le ddRows b2
  have hfd := operandCount_le fdRows b2
  unfold instrLength
  repeat' split
  all_goals omega

section
variable {b1 b2 b3 b4 : Byte}

/-- Four bytes decode as the bytes that are fetched do, with the others left over. -/
theorem decode_eq_own (b1 b2 b3 b4 : Byte) : decode [b1, b2, b3, b4] =
    leaveMore ([b1, b2, b3, b4].drop (instrLength b1 b2)) (decode ([b1, b2, b3, b4].take (instrLength b1 b2))) := by
  rw [← decode_append, List.take_append_drop]
  obtain hown | ⟨i, hown⟩ := decode_decides b1 b2 b3 b4 [] <;> simp [hown]

/-- The instruction read from four bytes is read from the bytes fetched, which it uses up. -/
theorem decode_own_of_ok {rest : List Byte} (h : decode [b1, b2, b3, b4] = .ok (i, rest)) :
    instrLength b1 b2 = 4 - rest.length ∧ decode ([b1, b2, b3, b4].take (instrLength b1 b2)) = .ok (i, []) := by
  have hle := instrLength_le b1 b2
  obtain hown | ⟨j, hown⟩ := decode_decides b1 b2 b3 b4 [] <;> rw [decode_eq_own, hown] at h <;> cases h
  refine ⟨?_, hown⟩
  simp only [List.nil_append, List.length_drop, List.length_cons, List.length_nil]
  omega

/-- Where the decoder refuses an encoding, it refuses the bytes fetched, and needs no others to refuse them. -/
theorem decode_own_of_unknown (h : decode [b1, b2, b3, b4] = .error (.unknownEncoding seen)) :
    [b1, b2, b3, b4].take (instrLength b1 b2) = seen ∧ decode seen = .error (.unknownEncoding seen) := by
  obtain hown | ⟨j, hown⟩ := decode_decides b1 b2 b3 b4 [] <;> rw [decode_eq_own, hown] at h <;> cases h
  exact ⟨rfl, hown⟩

end

end Sys2Proof
end

section
/-! PROOFS. The fetch of an instruction and the step that runs it or refuses it (30_encoding.md R150 to R152, R160;
60_exceptions.md R501, R530, R540, R553). -/

namespace Sys2Proof.Machine

variable {s t : State} {i : Instr}

/-! ### Reading ahead -/

/-- `n` addresses from `a` on, `mod 65536` (30_encoding.md R150). -/
def addressesFrom (a : Word) (n : Nat) : List Word := (List.range n).map fun k => a + BitVec.ofNat 16 k

theorem addressesFrom_succ (a : Word) (n : Nat) : addressesFrom a (n + 1) = a :: addressesFrom (a + 1#16) n := by
  simp [addressesFrom, List.range_succ_eq_map, BitVec.add_assoc, BitVec.ofNat_add, BitVec.add_comm 1#16]

/-- The bus effects of reads at the addresses, in order. -/
def afterReads (addresses : List Word) (s : State) : State :=
  { s with
    watch := addresses.foldl (fun w a => w.check .read a) s.watch
    activity := addresses.foldl (fun m a => markAccess .read a m) s.activity }

@[simp] theorem afterReads_ula (addresses : List Word) (s : State) : (afterReads addresses s).ula = s.ula := rfl

theorem fetchBytes_eq (a : Word) (n : Nat) (s : State) :
    fetchBytes a n s = (readBlock s a n, afterReads (addressesFrom a n) s) := by
  refine Prod.ext (fetchBytes_fst a n s) ?_
  induction n generalizing a s with
  | zero => rfl
  | succ n ih =>
    rw [addressesFrom_succ]
    exact ih (a + 1#16) (read8 a s).2

theorem readBlock_congr (hc : t.cfg = s.cfg) (hs : t.slots = s.slots) (hm : t.mem = s.mem) (a : Word) (n : Nat) :
    readBlock t a n = readBlock s a n := by
  induction n generalizing a with
  | zero => rfl
  | succ n ih => simp only [readBlock, ih, peek_congr hc hs hm]

theorem take_readBlock (s : State) (a : Word) {m n : Nat} (h : m ≤ n) :
    (readBlock s a n).take m = readBlock s a m := by
  induction m generalizing a n with
  | zero => rfl
  | succ m ih =>
    obtain _ | n := n
    · omega
    · simp only [readBlock, List.take_succ_cons, ih _ (Nat.le_of_succ_le_succ h)]

/-! ### Fetching an instruction -/

/-- The state after the first fetch of an instruction that the ULA does not intercept (30_encoding.md R150). -/
def afterFirst (s : State) : State :=
  { (read8 s.cpu.pc s).2 with activity := markExecuted s.cpu.pc (read8 s.cpu.pc s).2.activity }

@[simp] theorem afterFirst_cfg (s : State) : (afterFirst s).cfg = s.cfg := rfl

/-- A fetch that shows the ULA no character answers the byte in memory. -/
theorem fetchFirst_of_no_character (h : intercepts s s.cpu.pc = false ∨ peek s s.cpu.pc ∉ s.cfg.charData) :
    fetchFirst s = (peek s s.cpu.pc, afterFirst s) := by
  by_cases hi : intercepts s s.cpu.pc = true
  · have hfirst : fetchFirst s = ulaIntercept s.cpu.pc (peek s s.cpu.pc) (afterFirst s) := if_pos hi
    rw [hfirst]
    exact if_neg (by simpa using h.resolve_left (by simp [hi]))
  · exact if_neg hi

theorem repeat_incR (n : Nat) (s : State) :
    Nat.repeat incR n s = { s with cpu := { s.cpu with r := Nat.repeat nextR n s.cpu.r } } := by
  induction n with
  | zero => rfl
  | succ n ih =>
    rw [Nat.repeat, ih]
    rfl

/-- The state after the fetch, put together from the first fetch and the reads after it. -/
theorem afterFetch_succ (n m1 : Nat) (s : State) :
    afterFetch (n + 1) m1 s = setPC (s.cpu.pc + BitVec.ofNat 16 (n + 1))
      (afterReads (addressesFrom (s.cpu.pc + 1#16) n) (Nat.repeat incR m1 (afterFirst (beginCall s)))) := by
  have haddresses := addressesFrom_succ s.cpu.pc n
  simp only [addressesFrom] at haddresses
  rw [repeat_incR]
  simp only [afterFetch, haddresses]
  rfl

/-- What the fetch of a whole instruction answers: its bytes, and the state its operation runs in but for `PC`. -/
def Fetches (s : State) (length m1 : Nat) (fetched : List Byte × State) : Prop :=
  fetched.1 = readBlock s s.cpu.pc length ∧
    setPC (s.cpu.pc + BitVec.ofNat 16 length) fetched.2 = afterFetch length m1 s

theorem fetchMain_fetches (s : State) : Fetches s (1 + operandCount mainRows (peek s s.cpu.pc)) 1
    (fetchMain s.cpu.pc (peek s s.cpu.pc) (incR (afterFirst (beginCall s)))) := by
  rw [fetchMain, fetchBytes_eq, Nat.add_comm]
  constructor
  · exact congrArg (_ :: ·) (readBlock_congr (s := s) (t := incR (afterFirst (beginCall s))) rfl rfl rfl _ _)
  · rw [afterFetch_succ]
    rfl

theorem fetchPrefixed_fetches (s : State) {n : Nat}
    (hn : instrLength (peek s s.cpu.pc) (peek s (s.cpu.pc + 1#16)) = n + 2) :
    Fetches s (n + 2) 2
      (fetchPrefixed s.cpu.pc (peek s s.cpu.pc) (incR (afterFirst (beginCall s)))) := by
  have hnext : s.cpu.pc + 1#16 + 1#16 = s.cpu.pc + 2#16 := BitVec.add_assoc ..
  have hb2 : (read8 (s.cpu.pc + 1#16) (incR (afterFirst (beginCall s)))).1 = peek s (s.cpu.pc + 1#16) := rfl
  simp only [fetchPrefixed, hb2, hn, Nat.add_sub_cancel, fetchBytes_eq]
  constructor
  · simp only [readBlock, hnext]
    exact congrArg (_ :: _ :: ·) (readBlock_congr (s := s)
      (t := incR (read8 (s.cpu.pc + 1#16) (incR (afterFirst (beginCall s)))).2) rfl rfl rfl _ _)
  · rw [afterFetch_succ, addressesFrom_succ, hnext]
    rfl

/-- A lead byte is followed by at least an opcode byte. -/
theorem instrLength_of_lead {b1 : Byte} (h : Page.of b1 ≠ .main) (b2 : Byte) :
    ∃ n, instrLength b1 b2 = n + 2 := by
  refine Nat.exists_eq_add_of_le' ?_
  unfold instrLength
  split
  · contradiction
  · exact Nat.le_refl 2
  · exact Nat.le_add_right 2 _
  all_goals split <;> omega

/-- How many bytes the fetch at `PC` reads. -/
def fetchLength (s : State) : Nat := instrLength (peek s s.cpu.pc) (peek s (s.cpu.pc + 1#16))

/-- A fetch that the ULA does not intercept reads the bytes of the instruction, and leaves the state that `afterFetch`
says (30_encoding.md R150, R152, R156). -/
theorem fetchInstr_fetches (h : intercepts s s.cpu.pc = false) :
    Fetches s (fetchLength s) (m1Fetches (peek s s.cpu.pc)) (fetchInstr (beginCall s)) := by
  have hfirst : fetchFirst (beginCall s) = (peek s s.cpu.pc, afterFirst (beginCall s)) :=
    fetchFirst_of_no_character (s := beginCall s) (.inl h)
  simp only [fetchInstr, hfirst]
  cases hpage : Page.of (peek s s.cpu.pc) with
  | main =>
    simp only [fetchLength, instrLength, m1Fetches, hpage]
    exact fetchMain_fetches s
  | cb | dd | ed | fd =>
    obtain ⟨n, hn⟩ := instrLength_of_lead (b1 := peek s s.cpu.pc) (by simp [hpage]) (peek s (s.cpu.pc + 1#16))
    simp only [fetchLength, hn, m1Fetches, hpage]
    exact fetchPrefixed_fetches s hn

/-! ### The fetched bytes and the decoder -/

@[simp] theorem length_readBlock (s : State) (a : Word) (n : Nat) : (readBlock s a n).length = n := by
  induction n generalizing a with
  | zero => rfl
  | succ n ih => simp [readBlock, ih]

theorem take_fetchLength (s : State) :
    (readBlock s s.cpu.pc 4).take (fetchLength s) = readBlock s s.cpu.pc (fetchLength s) :=
  take_readBlock s s.cpu.pc (instrLength_le _ _)

/-- The bytes fetched decode to the instruction that the four bytes at `PC` decode to. -/
theorem decode_fetched_of_ok {rest : List Byte} (h : decode (readBlock s s.cpu.pc 4) = .ok (i, rest)) :
    fetchLength s = 4 - rest.length ∧ decode (readBlock s s.cpu.pc (fetchLength s)) = .ok (i, []) :=
  take_fetchLength s ▸ decode_own_of_ok h

/-- The bytes fetched are the ones refused (60_exceptions.md R501). -/
theorem decode_fetched_of_unknown {bytes : List Byte}
    (h : decode (readBlock s s.cpu.pc 4) = .error (.unknownEncoding bytes)) :
    readBlock s s.cpu.pc (fetchLength s) = bytes ∧ decode bytes = .error (.unknownEncoding bytes) :=
  take_fetchLength s ▸ decode_own_of_unknown h

/-! ### The call and the step -/

/-- A call whose bytes decode runs the instruction in the state after the fetch, and ends (60_exceptions.md R530). -/
theorem executeOne_of_ok {rest : List Byte} (hplain : intercepts s s.cpu.pc = false)
    (hdecode : decode (readBlock s s.cpu.pc 4) = .ok (i, rest))
    (hexec : exec i (afterFetch (4 - rest.length) (m1Fetches (peek s s.cpu.pc)) s) = .next t) :
    executeOne s = .next (finishCall s.cpu.intDeferred t) := by
  obtain ⟨hbytes, hstate⟩ := fetchInstr_fetches hplain
  obtain ⟨hlength, hown⟩ := decode_fetched_of_ok hdecode
  rw [hlength] at hbytes hstate hown
  have hpc0 : (fetchInstr (beginCall s)).2.pc0 = s.cpu.pc := congrArg State.pc0 hstate
  simp only [executeOne, hbytes, hown, hpc0, length_readBlock, hstate, hexec]

/-- A call whose bytes are refused puts the CPU back and sets the mark (60_exceptions.md R501). -/
theorem executeOne_of_unknown {bytes : List Byte} (hplain : intercepts s s.cpu.pc = false)
    (hdecode : decode (readBlock s s.cpu.pc 4) = .error (.unknownEncoding bytes)) :
    executeOne s = .next { afterFetch (fetchLength s) (m1Fetches (peek s s.cpu.pc)) s with
      cpu := s.cpu, fault := some (.unknownEncoding s.cpu.pc bytes) } := by
  obtain ⟨hbytes, hstate⟩ := fetchInstr_fetches hplain
  obtain ⟨hseen, hrefused⟩ := decode_fetched_of_unknown hdecode
  have hpc0 : (fetchInstr (beginCall s)).2.pc0 = s.cpu.pc := congrArg State.pc0 hstate
  simp only [executeOne, hbytes, hseen, hrefused, hpc0, ← hstate, setPC_pc0]
  rfl

/-- A call that leaves the mark ends the step: no ULA, no accounting, no coverage (60_exceptions.md R540; log 11). -/
theorem machineStep_of_fault (hcall : executeOne { s with failure := none } = .next t)
    (hfault : t.fault.isSome = true) : machineStep s = .next t := by
  rw [machineStep, hcall]
  exact congrArg _ (if_pos hfault)

theorem step_of_machineStep (hfault : s.fault = none) (h : machineStep s = .next t) : step s = outcome t := by
  simp [step, hfault, h]

/-- Settles O7: the fetch reads as many bytes as the decoder needs, so it decodes them to the same instruction. -/
theorem stepRunsDecoded : Obligations.StepRunsDecoded := by
  intro s i rest hfault hplain hdecode
  obtain ⟨t, ht⟩ :=
    exec_next i (afterFetch (4 - rest.length) (m1Fetches (peek s s.cpu.pc)) { s with failure := none })
  have hcall := executeOne_of_ok (s := { s with failure := none }) hplain hdecode ht
  have hstep : machineStep s = .next (finishStep (finishCall s.cpu.intDeferred t)) := by rw [machineStep, hcall]
  rw [ht, step_of_machineStep hfault hstep, afterExec]

/-- Settles O9: the fetch reads just the bytes refused, and the mark it leaves ends the step. -/
theorem unknownEncodingStops : Obligations.UnknownEncodingStops := by
  intro s bytes hfault hplain hdecode
  have hcall := executeOne_of_unknown (s := { s with failure := none }) hplain hdecode
  have hstep := machineStep_of_fault hcall rfl
  exact ⟨step_of_machineStep hfault hstep, _, hstep,
    rfl, rfl, rfl, rfl, rfl, rfl, rfl, rfl, rfl, rfl, rfl, rfl, rfl⟩

/-! ### The bus-replay interception (30_encoding.md R151, 60_exceptions.md R553) -/

theorem xor_ones_eq_not (v : Byte) : v ^^^ 0xFF#8 = ~~~v := BitVec.xor_allOnes

/-- Showing a character appends its glyph row, and a colour byte where there is a colour plane. -/
theorem showCharacter_eq (pc0 : Word) (c : Byte) (s : State) : ∃ color,
    let glyph := peek s (s.cfg.charGenOf s.cpu.i s.cpu.ix s.cpu.iy c s.ula.line)
    showCharacter pc0 c s = { s with ula := { s.ula with
      scanRec := s.ula.scanRec ++ [if c ∈ s.cfg.charInvert then ~~~glyph else glyph]
      colorRec := s.ula.colorRec ++ (if s.cfg.colorMode then [color] else []) } } := by
  refine ⟨colorByte pc0 c s, ?_⟩
  cases hcolor : s.cfg.colorMode <;> simp [showCharacter, glyphByte, hcolor, xor_ones_eq_not]

theorem ulaIntercept_atFetch {c : Byte} (pc0 : Word) (hc : c ∈ s.cfg.charData) (h : s.cfg.charRead = .atFetch) :
    (ulaIntercept pc0 c s).2 = showCharacter pc0 c s := by
  simp [ulaIntercept, hc, h]

theorem ulaIntercept_inUlaStep {c : Byte} (pc0 : Word) (hc : c ∈ s.cfg.charData)
    (h : s.cfg.charRead = .inUlaStep) :
    (ulaIntercept pc0 c s).2 = { s with ula := { s.ula with pendingChar := some (pc0, c) } } := by
  simp [ulaIntercept, hc, h]

theorem ulaIntercept_cpu (pc0 : Word) (c : Byte) (s : State) : (ulaIntercept pc0 c s).2.cpu = s.cpu := by
  unfold ulaIntercept
  split
  · split <;> rfl
  · rfl

/-- Where a character is fetched, the instruction is the single byte 0x00. -/
theorem fetchInstr_of_character (h : intercepts s s.cpu.pc = true) (hc : peek s s.cpu.pc ∈ s.cfg.charData) :
    fetchInstr s = ([0x00#8], incR (ulaIntercept s.cpu.pc (peek s s.cpu.pc) (afterFirst s)).2) := by
  have hbyte : (ulaIntercept s.cpu.pc (peek s s.cpu.pc) (afterFirst s)).1 = 0x00#8 := by simp [ulaIntercept, hc]
  have hfirst : fetchFirst s = (0x00#8, (ulaIntercept s.cpu.pc (peek s s.cpu.pc) (afterFirst s)).2) :=
    (if_pos h).trans (Prod.ext hbyte rfl)
  rw [fetchInstr, hfirst]
  rfl

/-- The rest of a fetch leaves byte 1 and the ULA as the first fetch has them. -/
theorem fetchInstr_first (s : State) :
    (fetchInstr s).1.head? = some (fetchFirst s).1 ∧ (fetchInstr s).2.ula = (fetchFirst s).2.ula := by
  rcases hfirst : fetchFirst s with ⟨b1, u⟩
  simp only [fetchInstr, hfirst]
  cases Page.of b1 with
  | main => simp [fetchMain, fetchBytes_eq]
  | cb | dd | ed | fd => simp [fetchPrefixed, fetchBytes_eq]

/-- Settles O56: an intercepted character is the byte 0x00 to the decoder and a glyph to the ULA; any other fetch leaves
the ULA alone; and a ULA step begins with the character that was kept. -/
theorem busReplayFetch : Obligations.BusReplayFetch := by
  intro s pc b glyph
  refine ⟨fun hvariant hupper hb => ?_, fun h => ?_, fun n pc0 c hvariant hpending => ?_⟩
  · have hintercepts : intercepts s pc = true := by simpa [intercepts, hvariant, BitVec.le_def] using hupper
    have hfetch : fetchInstr s = ([0x00#8], incR (ulaIntercept pc b (afterFirst s)).2) :=
      fetchInstr_of_character hintercepts hb
    have hkept := fetchInstr_fetchOnly s
    refine ⟨congrArg Prod.fst hfetch, rfl, fun hread => ?_, fun hread => ?_, ?_, by rw [hkept], _, rfl, fun a => ?_⟩
    · obtain ⟨color, hshown⟩ := showCharacter_eq pc b (afterFirst s)
      exact ⟨color, by rw [hfetch, ulaIntercept_atFetch (s := afterFirst s) pc hb hread, hshown]; rfl⟩
    · rw [hfetch, ulaIntercept_inUlaStep (s := afterFirst s) pc hb hread]
      rfl
    · rw [hfetch, incR, ulaIntercept_cpu]
      rfl
    · refine peek_congr ?_ ?_ ?_ a <;> rw [hkept] <;> rfl
  · have hplain : intercepts s pc = false ∨ b ∉ s.cfg.charData := by
      rw [← or_assoc] at h
      refine h.imp_left fun h => ?_
      simpa [intercepts, BitVec.le_def, imp_iff_not_or] using h
    obtain ⟨hbyte, hula⟩ := fetchInstr_first s
    rw [fetchFirst_of_no_character hplain] at hbyte hula
    exact ⟨hbyte, hula⟩
  · obtain ⟨color, hshown⟩ := showCharacter_eq pc0 c { s with ula := { s.ula with pendingChar := none } }
    refine ⟨color, ?_⟩
    simp only [ulaStep, hvariant, showPending, hpending, hshown]
    rfl

end Sys2Proof.Machine
end

section
/-! PROOFS. The 8-bit loads and stores (40_load8.md R200 to R220). -/

namespace Sys2Proof.Machine

variable {s t u : State} {i : Instr} {cost : Nat}

/-! ### What an instruction leaves -/

/-- An instruction that ends in `done` completes its form: `done` adds the T-states to the state `u` its operation
left. -/
theorem Form.completes_of_done {α : Type} {form : Form α} (hexec : exec form.instr s = done form.cost u)
    (haccesses : Accessed form.accesses s u) (hothers : OthersKept s u) :
    form.completes s (setTIns form.cost u) :=
  ⟨hexec, rfl, haccesses, hothers⟩

theorem regsKept_setR8 {written : List Reg} {g : Reg8} (h : RegsKept written s t) (hg : regOf8 g ∈ written)
    (v : Byte) : RegsKept written s (setR8 g v t) := by
  intro reg hreg
  have hother : reg ≠ regOf8 g := fun heq => hreg (heq ▸ hg)
  have hkept : reg.kept s t := h reg hreg
  revert hother hkept
  cases g <;> cases reg <;> simp [Reg.kept, regOf8, setR8]

/-- The flags of a byte loaded (40_load8.md R217): its sign as a number, whether it is zero, and `C` as before. -/
theorem flagsAre_byteFlags (v : Byte) (pv : Bool) (t : State) :
    flagsAre (setFlags (byteFlags v pv) t) (decide (v.toInt < 0)) (decide (v = 0#8)) false pv false t.cpu.f.c :=
  ⟨BitVec.msb_eq_toInt (x := v), rfl, rfl, rfl, rfl, rfl⟩

/-! ### Loads -/

/-- The form loads its operand into the register it names, and leaves all else. -/
def LoadsByte (s : State) (form : Form (Reg8 × Byte)) : Prop :=
  ∃ t, form.completes s t ∧ r8 t form.operand.1 = form.operand.2 ∧
    FlagsKept s t ∧ RegsKept [regOf8 form.operand.1] s t ∧ MemoryKept s t

/-- A load of a byte that is not in memory. -/
theorem loadsByte_direct {g : Reg8} {v : Byte} (h : exec i s = done cost (setR8 g v s)) :
    LoadsByte s { instr := i, cost := cost, operand := (g, v) } :=
  ⟨_, Form.completes_of_done h (by simp) (by simp), r8_setR8 s g v, by simp,
    regsKept_setR8 (regsKept_self s _) (List.mem_singleton_self _) v, by simp⟩

/-- A load of the byte at address `x`. -/
theorem loadsByte_read {g : Reg8} {x : Word} (h : exec i s = done cost (setR8 g (peek s x) (read8 x s).2)) :
    LoadsByte s { instr := i, cost := cost, operand := (g, peek s x), accesses := reads [x] } :=
  ⟨_, Form.completes_of_done h ((accessed_setR8 ..).mpr (accessed_read8 x)) (by simp), r8_setR8 _ g _, by simp,
    regsKept_setR8 (t := (read8 x s).2) (regsKept_self s _) (List.mem_singleton_self _) _, by simp⟩

/-- Settles O13: two forms load a register or an operand byte, and six load the byte at an address. -/
theorem byteLoads : Obligations.ByteLoads := by
  intro s dst src n disp nn ix iy forms
  change ∀ form ∈ forms, LoadsByte s form
  simp only [forms, List.forall_mem_cons]
  exact ⟨loadsByte_direct rfl, loadsByte_direct rfl, loadsByte_read rfl, loadsByte_read rfl, loadsByte_read rfl,
    loadsByte_read rfl, loadsByte_read rfl, loadsByte_read rfl, List.forall_mem_nil _⟩

/-! ### Stores -/

/-- The form stores its operand, an address and a byte, and leaves all else. -/
def StoresByte (s : State) (form : Form (Word × Byte)) : Prop :=
  ∃ t, form.completes s t ∧ Stored [form.operand] s t ∧ FlagsKept s t ∧ RegsKept [] s t

/-- A store is one bus write. -/
theorem storesByte_write (hw : Memory.wf s.cfg s.mem = true) {x : Word} {v : Byte}
    (h : exec i s = done cost (write8 x v s)) :
    StoresByte s { instr := i, cost := cost, operand := (x, v), accesses := writes [x] } :=
  ⟨_, Form.completes_of_done h (accessed_write8 x v) (by simp), (stored_setTIns ..).mpr (stored_write8 hw x v),
    by simp, by simp⟩

/-- Settles O14: each form is one bus write at the address of its operand. -/
theorem byteStores : Obligations.ByteStores := by
  intro s src n disp nn hw ix iy forms
  change ∀ form ∈ forms, StoresByte s form
  simp only [forms, List.forall_mem_cons]
  exact ⟨storesByte_write hw rfl, storesByte_write hw rfl, storesByte_write hw rfl, storesByte_write hw rfl,
    storesByte_write hw rfl, storesByte_write hw rfl, storesByte_write hw rfl, storesByte_write hw rfl,
    storesByte_write hw rfl, List.forall_mem_nil _⟩

/-! ### `I` and `R` -/

theorem regsKept_writeI (v : Byte) : RegsKept [.i] s { s with cpu := { s.cpu with i := v } } := by
  intro reg hreg
  cases reg with
  | i => exact absurd (List.mem_singleton_self _) hreg
  | _ => rfl

theorem regsKept_writeR (v : Byte) : RegsKept [.r] s { s with cpu := { s.cpu with r := v } } := by
  intro reg hreg
  cases reg with
  | r => exact absurd (List.mem_singleton_self _) hreg
  | _ => rfl

/-- The form loads `A` with its operand, sets the flags from it, `PV` from `IFF2`, and leaves all else. -/
def LoadsAWithFlags (s : State) (form : Form Byte) : Prop :=
  ∃ t, form.completes s t ∧ t.cpu.a = form.operand ∧
    flagsAre t (decide (form.operand.toInt < 0)) (decide (form.operand = 0#8)) false s.cpu.iff2 false s.cpu.f.c ∧
    RegsKept [.a] s t ∧ MemoryKept s t

theorem loadsAWithFlags {v : Byte} (h : exec i s = done cost (setFlags (byteFlags v s.cpu.iff2) (setA v s))) :
    LoadsAWithFlags s { instr := i, cost := cost, operand := v } :=
  ⟨_, Form.completes_of_done h (by simp) (by simp), rfl, flagsAre_byteFlags v s.cpu.iff2 (setA v s),
    regsKept_setR8 (g := .a) (regsKept_self s _) (List.mem_singleton_self _) v, by simp⟩

/-- Settles O15: `LD A,I` and `LD A,R` are one load with flags; `LD I,A` and `LD R,A` write one register. -/
theorem specialLoads : Obligations.SpecialLoads := by
  intro s
  refine ⟨?_, ?_, ?_⟩
  · change ∀ form ∈ _, LoadsAWithFlags s form
    simp only [List.forall_mem_cons]
    exact ⟨loadsAWithFlags rfl, loadsAWithFlags rfl, List.forall_mem_nil _⟩
  · exact ⟨_, Form.completes_of_done rfl (accessed_self s) rfl, rfl, rfl, regsKept_writeI s.cpu.a,
      memoryKept_self s⟩
  · exact ⟨_, Form.completes_of_done rfl (accessed_self s) rfl, rfl, rfl, regsKept_writeR s.cpu.a,
      memoryKept_self s⟩

end Sys2Proof.Machine
end

section
/-! PROOFS. The 16-bit loads, push and pop (41_load16.md R230 to R249). -/

namespace Sys2Proof.Machine

variable {s t : State} {i : Instr} {cost : Nat}

/-! ### Writing a 16-bit register

The destinations of the family have the host's names in the statements, so `hostSet16` is the one write they share. -/

theorem setR16_eq_hostSet16 (dd : Reg16) (v : Word) (s : State) :
    setR16 dd v s = hostSet16 (pairOf16 dd) v s := by cases dd <;> rfl

theorem setR16AF_eq_hostSet16 (qq : Reg16AF) (v : Word) (s : State) :
    setR16AF qq v s = hostSet16 (pairOf16AF qq) v s := by cases qq <;> rfl

@[simp] theorem hostGet16_hostSet16 (r : HostReg16) (v : Word) (s : State) : hostGet16 (hostSet16 r v s) r = v := by
  cases r <;> simp [hostSet16]

@[simp] theorem accessed_hostSet16 (acc : List (AccessKind × Word)) (r : HostReg16) (v : Word) :
    Accessed acc s (hostSet16 r v t) ↔ Accessed acc s t := by cases r <;> exact Iff.rfl

@[simp] theorem memoryKept_hostSet16 (r : HostReg16) (v : Word) :
    MemoryKept s (hostSet16 r v t) ↔ MemoryKept s t := by cases r <;> exact Iff.rfl

@[simp] theorem othersKept_hostSet16 (r : HostReg16) (v : Word) :
    OthersKept s (hostSet16 r v t) ↔ OthersKept s t := by cases r <;> exact Iff.rfl

/-- Only a write of `AF` reaches `F`. -/
theorem hostSet16_cpu_f {r : HostReg16} (h : r ≠ .af) (v : Word) (s : State) : (hostSet16 r v s).cpu.f = s.cpu.f := by
  cases r with
  | af => exact absurd rfl h
  | _ => rfl

/-- Only a write of `SP` reaches `SP`. -/
theorem hostSet16_cpu_sp {r : HostReg16} (h : r ≠ .sp) (v : Word) (s : State) :
    (hostSet16 r v s).cpu.sp = s.cpu.sp := by
  cases r with
  | sp => exact absurd rfl h
  | _ => rfl

/-- A write of a 16-bit register reaches no register but its own; `PC` is left out, since the host's write of it also
clears `halted` (60_exceptions.md R575). -/
theorem regsKept_hostSet16 {written : List Reg} {r : HostReg16} (h : RegsKept written s t) (hpc : r ≠ .pc)
    (hr : regsOfPair r ⊆ written) (v : Word) : RegsKept written s (hostSet16 r v t) := by
  intro reg hreg
  have hother : reg ∉ regsOfPair r := fun hmem => hreg (hr hmem)
  have hkept : reg.kept s t := h reg hreg
  revert hpc hother hkept
  cases r <;> cases reg <;> simp [Reg.kept, regsOfPair, hostSet16]

theorem regsKept_of_cpu (h : t.cpu = s.cpu) (written : List Reg) : RegsKept written s t := by
  intro reg _
  cases reg <;> simp [Reg.kept, h]

theorem regsKept_of_cpu_sp {sp : Word} (h : t.cpu = { s.cpu with sp := sp }) {written : List Reg}
    (hsp : .sp ∈ written) : RegsKept written s t := by
  intro reg hreg
  cases reg with
  | sp => exact absurd hsp hreg
  | _ => simp [Reg.kept, h]

theorem flagsKept_of_cpu_sp {sp : Word} (h : t.cpu = { s.cpu with sp := sp }) : FlagsKept s t := by
  simp [FlagsKept, h]

theorem pairOf16_ne_af_pc (dd : Reg16) : pairOf16 dd ≠ .af ∧ pairOf16 dd ≠ .pc := by cases dd <;> decide

theorem pairOf16AF_ne_sp_pc (qq : Reg16AF) : pairOf16AF qq ≠ .sp ∧ pairOf16AF qq ≠ .pc := by cases qq <;> decide

/-! ### Loads -/

/-- The form loads its operand into the 16-bit register it names, and leaves all else. -/
def LoadsWord (s : State) (form : Form (HostReg16 × Word)) : Prop :=
  ∃ t, form.completes s t ∧ hostGet16 t form.operand.1 = form.operand.2 ∧
    FlagsKept s t ∧ RegsKept (regsOfPair form.operand.1) s t ∧ MemoryKept s t

/-- A load of a word that is not in memory. -/
theorem loadsWord_direct {r : HostReg16} (hr : r ≠ .af ∧ r ≠ .pc) {v : Word}
    (h : exec i s = done cost (hostSet16 r v s)) : LoadsWord s { instr := i, cost := cost, operand := (r, v) } :=
  ⟨_, Form.completes_of_done h (by simp) (by simp), hostGet16_hostSet16 r v s, hostSet16_cpu_f hr.1 v s,
    regsKept_hostSet16 (regsKept_self s _) hr.2 (List.Subset.refl _) v, by simp⟩

/-- A load of the word at address `x`. -/
theorem loadsWord_read {r : HostReg16} (hr : r ≠ .af ∧ r ≠ .pc) {x : Word}
    (h : exec i s = done cost (hostSet16 r (memRead16 x s).1 (memRead16 x s).2)) :
    LoadsWord s
      { instr := i, cost := cost, operand := (r, (memRead16 x s).1), accesses := reads [x, x + 1#16] } := by
  obtain ⟨hcpu, hmem, haccesses, hothers⟩ := memRead16_spec (s := s) x
  refine ⟨_, Form.completes_of_done h ((accessed_hostSet16 ..).mpr haccesses) ((othersKept_hostSet16 ..).mpr hothers),
    hostGet16_hostSet16 r _ _, ?_, ?_, (memoryKept_hostSet16 ..).mpr hmem⟩
  · exact (hostSet16_cpu_f hr.1 _ _).trans (congrArg Cpu.f hcpu)
  · exact regsKept_hostSet16 (regsKept_of_cpu hcpu _) hr.2 (List.Subset.refl _) _

/-- Settles O16: six forms load an operand or a register, and four load the word at an address. -/
theorem wordLoads : Obligations.WordLoads := by
  intro s dd nn loaded bus forms
  have hdd := setR16_eq_hostSet16 dd
  change ∀ form ∈ forms, LoadsWord s form
  simp only [forms, List.forall_mem_cons]
  exact ⟨loadsWord_direct (pairOf16_ne_af_pc dd) (congrArg (done 10) (hdd nn s)), loadsWord_direct (by decide) rfl,
    loadsWord_direct (by decide) rfl, loadsWord_direct (by decide) rfl, loadsWord_direct (by decide) rfl,
    loadsWord_direct (by decide) rfl, loadsWord_read (by decide) rfl,
    loadsWord_read (pairOf16_ne_af_pc dd) (congrArg (done 20) (hdd _ _)), loadsWord_read (by decide) rfl,
    loadsWord_read (by decide) rfl, List.forall_mem_nil _⟩

/-! ### Stores -/

/-- The form stores its operand at `x`, low byte first, and leaves all else. -/
def StoresWord (s : State) (x : Word) (form : Form Word) : Prop :=
  ∃ t, form.completes s t ∧ Stored [(x, loByte form.operand), (x + 1#16, hiByte form.operand)] s t ∧
    FlagsKept s t ∧ RegsKept [] s t

theorem storesWord_write (hw : Memory.wf s.cfg s.mem = true) {x v : Word}
    (h : exec i s = done cost (memWrite16 x v s)) :
    StoresWord s x { instr := i, cost := cost, operand := v, accesses := writes [x, x + 1#16] } := by
  obtain ⟨hcpu, hstored, haccesses, hothers⟩ := memWrite16_spec hw x v
  exact ⟨_, Form.completes_of_done h haccesses hothers, (stored_setTIns ..).mpr hstored, congrArg Cpu.f hcpu,
    regsKept_of_cpu hcpu []⟩

/-- Settles O17: each form is one word written on the bus at `nn`. -/
theorem wordStores : Obligations.WordStores := by
  intro s dd nn hw bus forms
  change ∀ form ∈ forms, StoresWord s nn form
  simp only [forms, List.forall_mem_cons]
  exact ⟨storesWord_write hw rfl, storesWord_write hw rfl, storesWord_write hw rfl, storesWord_write hw rfl,
    List.forall_mem_nil _⟩

/-! ### Push -/

/-- The form pushes its operand, high byte first, and leaves all else. -/
def PushesWord (s : State) (form : Form Word) : Prop :=
  ∃ t, form.completes s t ∧ t.cpu.sp = s.cpu.sp - 2#16 ∧
    Stored [(s.cpu.sp - 1#16, hiByte form.operand), (s.cpu.sp - 2#16, loByte form.operand)] s t ∧
    FlagsKept s t ∧ RegsKept [.sp] s t

theorem pushesWord_push (hw : Memory.wf s.cfg s.mem = true) {v : Word} (h : exec i s = done cost (pushWord v s)) :
    PushesWord s
      { instr := i, cost := cost, operand := v, accesses := writes [s.cpu.sp - 1#16, s.cpu.sp - 2#16] } := by
  obtain ⟨hcpu, hstored, haccesses, hothers⟩ := pushWord_spec hw v
  exact ⟨_, Form.completes_of_done h haccesses hothers, congrArg Cpu.sp hcpu, (stored_setTIns ..).mpr hstored,
    flagsKept_of_cpu_sp hcpu, regsKept_of_cpu_sp hcpu (List.mem_singleton_self _)⟩

/-- Settles O18: each form is one word pushed. -/
theorem pushes : Obligations.Pushes := by
  intro s qq hw bus forms
  change ∀ form ∈ forms, PushesWord s form
  simp only [forms, List.forall_mem_cons, hostGet16_pairOf16AF]
  exact ⟨pushesWord_push hw rfl, pushesWord_push hw rfl, pushesWord_push hw rfl, List.forall_mem_nil _⟩

/-! ### Pop -/

/-- All 8 bits of `F` are those of a byte (10_state.md R36). -/
def FlagsFromByte (v : Byte) (t : State) : Prop :=
  t.cpu.f.y = v.getLsbD 5 ∧ t.cpu.f.x = v.getLsbD 3 ∧
    flagsAre t (v.getLsbD 7) (v.getLsbD 6) (v.getLsbD 4) (v.getLsbD 2) (v.getLsbD 1) (v.getLsbD 0)

theorem flagsFromByte_setAF (hi lo : Byte) (s : State) : FlagsFromByte lo (setAF (wordOf hi lo) s) := by
  simp [FlagsFromByte, flagsAre, Flags.ofByte]

/-- The form pops a word into the 16-bit register it names, `F` whole with `AF`, and leaves all else. -/
def PopsWord (s : State) (form : Form HostReg16) : Prop :=
  ∃ t, form.completes s t ∧ t.cpu.sp = s.cpu.sp + 2#16 ∧
    hostGet16 t form.operand = wordOf (peek s (s.cpu.sp + 1#16)) (peek s s.cpu.sp) ∧
    (form.operand ≠ .af → FlagsKept s t) ∧
    (form.operand = .af → FlagsFromByte (peek s s.cpu.sp) t) ∧
    RegsKept (.sp :: regsOfPair form.operand) s t ∧ MemoryKept s t

theorem popsWord_pop {r : HostReg16} (hr : r ≠ .sp ∧ r ≠ .pc)
    (h : exec i s = done cost (hostSet16 r (popWord s).1 (popWord s).2)) :
    PopsWord s { instr := i, cost := cost, operand := r, accesses := reads [s.cpu.sp, s.cpu.sp + 1#16] } := by
  obtain ⟨hword, hcpu, hmem, haccesses, hothers⟩ := popWord_spec (s := s)
  refine ⟨_, Form.completes_of_done h ((accessed_hostSet16 ..).mpr haccesses) ((othersKept_hostSet16 ..).mpr hothers),
    ?_, ?_, ?_, ?_, ?_, (memoryKept_hostSet16 ..).mpr hmem⟩
  · exact (hostSet16_cpu_sp hr.1 _ _).trans (congrArg Cpu.sp hcpu)
  · exact (hostGet16_hostSet16 r _ _).trans hword
  · exact fun haf => (hostSet16_cpu_f haf _ _).trans (flagsKept_of_cpu_sp hcpu)
  · rintro rfl
    exact flagsFromByte_setAF _ _ (popWord s).2
  · exact regsKept_hostSet16 (regsKept_of_cpu_sp hcpu List.mem_cons_self) hr.2 (List.subset_cons_self _ _) _

/-- Settles O19: each form is one word popped. -/
theorem pops : Obligations.Pops := by
  intro s qq popped bus forms
  change ∀ form ∈ forms, PopsWord s form
  simp only [forms, List.forall_mem_cons]
  exact ⟨popsWord_pop (pairOf16AF_ne_sp_pc qq) (congrArg (done 10) (setR16AF_eq_hostSet16 qq _ _)),
    popsWord_pop (by decide) rfl, popsWord_pop (by decide) rfl, List.forall_mem_nil _⟩

end Sys2Proof.Machine
end

section
/-! PROOFS. Exchanges, block transfers and block searches (42_exchange_block.md R260 to R273). -/

namespace Sys2Proof.Machine

variable {s t : State} {i : Instr} {cost : Nat}

/-! ### Exchanges of registers -/

/-- Settles O20: each exchange writes just the registers it names, each with what the other one held. -/
theorem registerExchanges : Obligations.RegisterExchanges := by
  intro s
  refine ⟨?deHl, ?afAf, ?exx⟩
  case deHl =>
    have hde : RegsKept [.d, .e, .h, .l] s (hostSet16 .de (hl s) s) :=
      regsKept_hostSet16 (regsKept_self s _) (by decide) (by decide) _
    exact ⟨_, Form.completes_of_done rfl (by simp) (by simp), de_setDE s (hl s), hl_setHL _ (de s), by simp,
      regsKept_hostSet16 (r := .hl) hde (by decide) (by decide) _, by simp⟩
  case afAf =>
    refine ⟨_, Form.completes_of_done rfl (accessed_self s) rfl, rfl, rfl, rfl, rfl, fun reg hreg => ?_,
      memoryKept_self s⟩
    revert hreg
    cases reg <;> simp [Reg.kept]
  case exx =>
    refine ⟨_, Form.completes_of_done rfl (accessed_self s) rfl, rfl, rfl, rfl, rfl, rfl, rfl, rfl,
      fun reg hreg => ?_, memoryKept_self s⟩
    revert hreg
    cases reg <;> simp [Reg.kept]

/-! ### Exchanges with the top of the stack -/

@[simp] theorem stored_hostSet16 (ws : List (Word × Byte)) (r : HostReg16) (v : Word) :
    Stored ws s (hostSet16 r v t) ↔ Stored ws s t := by cases r <;> exact Iff.rfl

/-- The form exchanges the 16-bit register it names with the word on the stack, and leaves all else. -/
def ExchangesTop (s : State) (form : Form HostReg16) : Prop :=
  ∃ t, form.completes s t ∧
    hostGet16 t form.operand = wordOf (peek s (s.cpu.sp + 1#16)) (peek s s.cpu.sp) ∧
    Stored [(s.cpu.sp + 1#16, hiByte (hostGet16 s form.operand)), (s.cpu.sp, loByte (hostGet16 s form.operand))] s t ∧
    FlagsKept s t ∧ RegsKept (regsOfPair form.operand) s t

theorem exchangesTop_exchangeTop (hw : Memory.wf s.cfg s.mem = true) {r : HostReg16} (hr : r ≠ .af ∧ r ≠ .pc)
    (h : exec i s = done cost
      (hostSet16 r (exchangeTop (hostGet16 s r) s).1 (exchangeTop (hostGet16 s r) s).2)) :
    ExchangesTop s
      { instr := i, cost := cost, operand := r
        accesses := reads [s.cpu.sp, s.cpu.sp + 1#16] ++ writes [s.cpu.sp + 1#16, s.cpu.sp] } := by
  obtain ⟨hword, hcpu, hstored, haccesses, hothers⟩ := exchangeTop_spec hw (hostGet16 s r)
  refine ⟨_, Form.completes_of_done h ((accessed_hostSet16 ..).mpr haccesses) ((othersKept_hostSet16 ..).mpr hothers),
    (hostGet16_hostSet16 r _ _).trans hword, (stored_hostSet16 ..).mpr hstored, ?_, ?_⟩
  · exact (hostSet16_cpu_f hr.1 _ _).trans (congrArg Cpu.f hcpu)
  · exact regsKept_hostSet16 (regsKept_of_cpu hcpu _) hr.2 (List.Subset.refl _) _

/-- Settles O21: each form is one exchange with the top of the stack. -/
theorem stackExchanges : Obligations.StackExchanges := by
  intro s hw sp bus forms
  change ∀ form ∈ forms, ExchangesTop s form
  simp only [forms, List.forall_mem_cons]
  exact ⟨exchangesTop_exchangeTop hw (by decide) rfl, exchangesTop_exchangeTop hw (by decide) rfl,
    exchangesTop_exchangeTop hw (by decide) rfl, List.forall_mem_nil _⟩

/-! ### Going on, or not -/

theorem regsKept_setPC {written written' : List Reg} (h : RegsKept written s t) (hsub : written ⊆ written')
    (hpc : .pc ∈ written') (v : Word) : RegsKept written' s (setPC v t) := by
  intro reg hreg
  have hkept : reg.kept s t := h reg fun hmem => hreg (hsub hmem)
  cases reg with
  | pc => exact absurd hpc hreg
  | _ => exact hkept

/-- Going on sets `PC` back to `pc0`, and ending leaves it (42_exchange_block.md R267). -/
theorem repeatWhile_eq_done (more : Bool) (s : State) :
    repeatWhile more s = done (if more then 21 else 16) (setPC (if more then s.pc0 else s.cpu.pc) s) := by
  cases more <;> rfl

theorem bne_eq_decide_ne (v w : Word) : (v != w) = decide (v ≠ w) := by simp [bne, beq_eq_decide]

/-! ### Block transfers -/

/-- The two bus accesses of a block transfer: the byte at `x` is stored at `y`. -/
def moveByte (x y : Word) (s : State) : State := write8 y (peek s x) (read8 x s).2

theorem moveByte_spec (hw : Memory.wf s.cfg s.mem = true) (x y : Word) : let u := moveByte x y s
    u.cpu = s.cpu ∧ Stored [(y, peek s x)] s u ∧ Accessed [(.read, x), (.write, y)] s u ∧ OthersKept s u :=
  ⟨rfl, ((Stored.refl s).congr (u := (read8 x s).2) rfl rfl rfl).write8 rfl rfl hw y _, (accessed_read8 x).write y _,
    by simp [moveByte]⟩

theorem blockMove_eq (step : Word) (s : State) :
    blockMove step s = setFlags (blockMoveFlags (bc s - 1#16)) (setBC (bc s - 1#16) (setDE (de s + step)
      (setHL (hl s + step) (moveByte (hl s) (de s) s)))) := by
  simp [blockMove, moveByte, bc, de, hl]

/-- All that one byte of a block transfer does. -/
theorem blockMove_spec (hw : Memory.wf s.cfg s.mem = true) (step : Word) : let u := blockMove step s
    hl u = hl s + step ∧ de u = de s + step ∧ bc u = bc s - 1#16 ∧
      flagsAre u s.cpu.f.s s.cpu.f.z false (decide (bc s - 1#16 ≠ 0#16)) false s.cpu.f.c ∧
      RegsKept [.b, .c, .d, .e, .h, .l] s u ∧ Stored [(de s, peek s (hl s))] s u ∧
      Accessed [(.read, hl s), (.write, de s)] s u ∧ OthersKept s u := by
  obtain ⟨hcpu, hstored, haccesses, hothers⟩ := moveByte_spec hw (hl s) (de s)
  rw [blockMove_eq]
  generalize moveByte (hl s) (de s) s = w at hcpu hstored haccesses hothers ⊢
  have hregs : RegsKept [.b, .c, .d, .e, .h, .l] s w := regsKept_of_cpu hcpu _
  have hhl := regsKept_hostSet16 (r := .hl) hregs (by decide) (by decide) (hl s + step)
  have hde := regsKept_hostSet16 (r := .de) hhl (by decide) (by decide) (de s + step)
  have hbc := regsKept_hostSet16 (r := .bc) hde (by decide) (by decide) (bc s - 1#16)
  refine ⟨by simp [hl], by simp [de], by simp [bc], ?_, hbc, by simpa, by simpa, by simpa⟩
  simp [flagsAre, blockMoveFlags, bne_eq_decide_ne, hcpu]

/-- The row's instruction transfers one byte, and says whether it goes on. -/
def TransfersByte (s : State) (row : Instr × Word × Bool) : Prop :=
  let count := bc s - 1#16
  let again := row.2.2 && decide (count ≠ 0#16)
  let form : Form Unit :=
    { instr := row.1, cost := if again then 21 else 16, operand := (), accesses := [(.read, hl s), (.write, de s)] }
  ∃ t, form.completes s t ∧
    hl t = hl s + row.2.1 ∧ de t = de s + row.2.1 ∧ bc t = count ∧
    t.cpu.pc = (if again then s.pc0 else s.cpu.pc) ∧
    flagsAre t s.cpu.f.s s.cpu.f.z false (decide (count ≠ 0#16)) false s.cpu.f.c ∧
    RegsKept [.b, .c, .d, .e, .h, .l, .pc] s t ∧ Stored [(de s, peek s (hl s))] s t

theorem transfersByte_blockMove (hw : Memory.wf s.cfg s.mem = true) {step : Word} {repeats : Bool}
    (h : exec i s = repeatWhile (repeats && bc (blockMove step s) != 0#16) (blockMove step s)) :
    TransfersByte s (i, step, repeats) := by
  obtain ⟨hhl, hde, hbc, hflags, hregs, hstored, haccesses, hothers⟩ := blockMove_spec hw step
  rw [hbc, bne_eq_decide_ne, repeatWhile_eq_done, hothers.pc0, hregs .pc (by decide)] at h
  exact ⟨_, Form.completes_of_done h haccesses hothers, hhl, hde, hbc, rfl, hflags,
    regsKept_setPC hregs (by decide) (by decide) _, hstored⟩

/-- Settles O22: each form transfers one byte, and a repeating one goes on while the new `BC` is not 0. -/
theorem blockTransfers : Obligations.BlockTransfers := by
  intro s hw
  change ∀ row ∈ _, TransfersByte s row
  simp only [List.forall_mem_cons]
  exact ⟨transfersByte_blockMove hw rfl, transfersByte_blockMove hw rfl, transfersByte_blockMove hw rfl,
    transfersByte_blockMove hw rfl, List.forall_mem_nil _⟩

/-! ### Block searches -/

/-- The difference of `SUB8` is that of the bytes mod 256 (43_arith8.md R281). -/
theorem sub8_fst (a b : Byte) (c : Bool) : (sub8 a b c).1 = a - b - BitVec.ofNat 8 c.toNat := by
  simp [sub8, sub_eq_add_neg, BitVec.ofInt_add, BitVec.ofInt_neg]

/-- The half borrow of `SUB8` (43_arith8.md R281). -/
theorem sub8_snd_h (a b : Byte) (c : Bool) :
    (sub8 a b c).2.h = .put (decide (a.toNat % 16 < b.toNat % 16 + c.toNat)) := by
  simp only [sub8, FlagVal.put.injEq, decide_eq_decide]
  omega

theorem blockSearch_eq (step : Word) (s : State) :
    blockSearch step s = setFlags (blockSearchFlags s.cpu.a (peek s (hl s)) (bc s - 1#16)) (setBC (bc s - 1#16)
      (setHL (hl s + step) (read8 (hl s) s).2)) := by
  simp [blockSearch, bc, hl]

/-- The flags of a block search: those of a comparison, `PV` from the count, `C` as before. -/
theorem flagsAre_blockSearchFlags (a v : Byte) (count : Word) (t : State) :
    flagsAre (setFlags (blockSearchFlags a v count) t) (decide ((a - v).toInt < 0)) (decide (a = v))
      (decide (a.toNat % 16 < v.toNat % 16)) (decide (count ≠ 0#16)) true t.cpu.f.c := by
  have hdiff : (sub8 a v false).1 = a - v := by simp [sub8_fst]
  have hs : (sub8 a v false).2.s = .put (a - v).msb := hdiff ▸ rfl
  have hz : (sub8 a v false).2.z = .put (a - v == 0#8) := hdiff ▸ rfl
  have hzero : (a - v == 0#8) = decide (a = v) := by simp [beq_eq_decide, BitVec.sub_eq_iff_eq_add]
  simp [flagsAre, blockSearchFlags, hs, hz, hzero, sub8_snd_h, BitVec.msb_eq_toInt, bne_eq_decide_ne]

/-- All that one byte of a block search does. -/
theorem blockSearch_spec (step : Word) : let u := blockSearch step s
    hl u = hl s + step ∧ bc u = bc s - 1#16 ∧
      flagsAre u (decide ((s.cpu.a - peek s (hl s)).toInt < 0)) (decide (s.cpu.a = peek s (hl s)))
        (decide (s.cpu.a.toNat % 16 < (peek s (hl s)).toNat % 16)) (decide (bc s - 1#16 ≠ 0#16)) true s.cpu.f.c ∧
      RegsKept [.b, .c, .h, .l] s u ∧ MemoryKept s u ∧ Accessed (reads [hl s]) s u ∧ OthersKept s u := by
  rw [blockSearch_eq]
  have hregs : RegsKept [.b, .c, .h, .l] s (read8 (hl s) s).2 := regsKept_of_cpu rfl _
  have hhl := regsKept_hostSet16 (r := .hl) hregs (by decide) (by decide) (hl s + step)
  have hbc := regsKept_hostSet16 (r := .bc) hhl (by decide) (by decide) (bc s - 1#16)
  exact ⟨by simp [hl], by simp [bc], flagsAre_blockSearchFlags _ _ _ _, hbc, by simp, accessed_read8 (hl s), rfl⟩

/-- The row's instruction compares `A` with one byte, and says whether it goes on. -/
def SearchesByte (s : State) (row : Instr × Word × Bool) : Prop :=
  let v := peek s (hl s)
  let count := bc s - 1#16
  let again := row.2.2 && decide (count ≠ 0#16) && decide (s.cpu.a ≠ v)
  let form : Form Unit :=
    { instr := row.1, cost := if again then 21 else 16, operand := (), accesses := reads [hl s] }
  ∃ t, form.completes s t ∧
    hl t = hl s + row.2.1 ∧ bc t = count ∧
    t.cpu.pc = (if again then s.pc0 else s.cpu.pc) ∧
    flagsAre t (decide ((s.cpu.a - v).toInt < 0)) (decide (s.cpu.a = v))
      (decide (s.cpu.a.toNat % 16 < v.toNat % 16)) (decide (count ≠ 0#16)) true s.cpu.f.c ∧
    RegsKept [.b, .c, .h, .l, .pc] s t ∧ MemoryKept s t

theorem searchesByte_blockSearch {step : Word} {repeats : Bool}
    (h : exec i s = repeatWhile (repeats && (bc (blockSearch step s) != 0#16 && !(blockSearch step s).cpu.f.z))
      (blockSearch step s)) : SearchesByte s (i, step, repeats) := by
  obtain ⟨hhl, hbc, hflags, hregs, hmem, haccesses, hothers⟩ := blockSearch_spec (s := s) step
  have ⟨_, hz, _⟩ := hflags
  rw [hbc, bne_eq_decide_ne, hz, ← decide_not, ← Bool.and_assoc, repeatWhile_eq_done, hothers.pc0,
    hregs .pc (by decide)] at h
  exact ⟨_, Form.completes_of_done h haccesses hothers, hhl, hbc, rfl, hflags,
    regsKept_setPC hregs (by decide) (by decide) _, hmem⟩

/-- Settles O23: each form compares one byte, and a repeating one goes on while the new `BC` is not 0 and the bytes
differ. -/
theorem blockSearches : Obligations.BlockSearches := by
  intro s
  change ∀ row ∈ _, SearchesByte s row
  simp only [List.forall_mem_cons]
  exact ⟨searchesByte_blockSearch rfl, searchesByte_blockSearch rfl, searchesByte_blockSearch rfl,
    searchesByte_blockSearch rfl, List.forall_mem_nil _⟩

end Sys2Proof.Machine
end

section
/-! PROOFS. 8-bit arithmetic and logic (43_arith8.md R280 to R331). -/

namespace Sys2Proof.Machine

variable {s t u : State} {i : Instr} {cost : Nat} {acc : List (AccessKind × Word)}

/-! ### The flags of the rules, as arithmetic on the numbers -/

/-- `SetFlags` with six values sets the six flags to them (10_state.md R37). -/
theorem flagsAre_setFlags {fs : FlagSet} {vs vz vh vpv vn vc : Bool} (hs : fs.s = .put vs) (hz : fs.z = .put vz)
    (hh : fs.h = .put vh) (hpv : fs.pv = .put vpv) (hn : fs.n = .put vn) (hc : fs.c = .put vc) (t : State) :
    flagsAre (setFlags fs t) vs vz vh vpv vn vc := by
  simp [flagsAre, hs, hz, hh, hpv, hn, hc]

/-- The overflow flags of R280 and R281 test bit 7 of two differences: `x` and `y` differ in sign, and so do `z` and
`w`. -/
theorem xor_and_xor_signMask_bne_zero (x y z w : Byte) : ((x ^^^ y) &&& (z ^^^ w) &&& 0x80#8 != 0#8) =
    decide ((128 ≤ x.toNat ↔ y.toNat < 128) ∧ (128 ≤ z.toNat ↔ w.toNat < 128)) := by
  have hmask (v : Byte) : (v &&& 0x80#8 != 0#8) = v.msb := by
    have hbit : v &&& 0x80#8 = if v.getLsbD 7 then 0x80#8 else 0#8 := BitVec.and_twoPow v 7
    rw [hbit, BitVec.msb_eq_getLsbD_last]
    cases v.getLsbD 7 <;> rfl
  rw [hmask, BitVec.msb_and, BitVec.msb_xor, BitVec.msb_xor, Bool.eq_iff_iff]
  simp only [BitVec.msb_eq_decide, Bool.and_eq_true, bne_iff_ne, ne_eq, decide_eq_decide, decide_eq_true_eq]
  omega

/-- The low four bits as a number, as in the half carries of R283. -/
theorem toNat_and_lowNibble (v : Byte) : (v &&& 0x0F#8).toNat = v.toNat % 16 := Nat.and_two_pow_sub_one_eq_mod _ 4

/-- The sum of `ADD8` is that of the bytes mod 256 (R280). -/
theorem add8_fst (a b : Byte) (c : Bool) : (add8 a b c).1 = a + b + BitVec.ofNat 8 c.toNat := by
  simp [add8, BitVec.ofNat_add]

/-- `ADD8` sets `PV` when the signed sum does not fit (R280). -/
theorem add8_snd_pv (a b : Byte) (c : Bool) : (add8 a b c).2.pv =
    .put (decide (a.toInt + b.toInt + c.toNat < -128 ∨ 127 < a.toInt + b.toInt + c.toNat)) := by
  have hc := c.toNat_lt
  simp only [add8, xor_and_xor_signMask_bne_zero, FlagVal.put.injEq, decide_eq_decide, BitVec.toInt_eq_toNat_cond,
    BitVec.toNat_ofNat]
  split_ifs <;> omega

/-- `SUB8` sets `PV` when the signed difference does not fit (R281). -/
theorem sub8_snd_pv (a b : Byte) (c : Bool) : (sub8 a b c).2.pv =
    .put (decide (a.toInt - b.toInt - c.toNat < -128 ∨ 127 < a.toInt - b.toInt - c.toNat)) := by
  have hc := c.toNat_lt
  simp only [sub8, xor_and_xor_signMask_bne_zero, FlagVal.put.injEq, decide_eq_decide, BitVec.toInt_eq_toNat_cond,
    BitVec.toNat_ofInt]
  split_ifs <;> omega

/-- The borrow of `SUB8` (R281). -/
theorem sub8_snd_c (a b : Byte) (c : Bool) : (sub8 a b c).2.c = .put (decide (a.toNat < b.toNat + c.toNat)) := by
  simp only [sub8, FlagVal.put.injEq, decide_eq_decide]
  omega

theorem flagsAre_add8 (a v : Byte) (c : Bool) (t : State) :
    flagsAre (setFlags (add8 a v c).2 t) (decide ((add8 a v c).1.toInt < 0)) (decide ((add8 a v c).1 = 0#8))
      (decide (15 < a.toNat % 16 + v.toNat % 16 + c.toNat))
      (decide (a.toInt + v.toInt + c.toNat < -128 ∨ 127 < a.toInt + v.toInt + c.toNat)) false
      (decide (255 < a.toNat + v.toNat + c.toNat)) :=
  flagsAre_setFlags (congrArg FlagVal.put BitVec.msb_eq_toInt) rfl rfl (add8_snd_pv a v c) rfl rfl t

theorem flagsAre_sub8 (a v : Byte) (c : Bool) (t : State) :
    flagsAre (setFlags (sub8 a v c).2 t) (decide ((sub8 a v c).1.toInt < 0)) (decide ((sub8 a v c).1 = 0#8))
      (decide (a.toNat % 16 < v.toNat % 16 + c.toNat))
      (decide (a.toInt - v.toInt - c.toNat < -128 ∨ 127 < a.toInt - v.toInt - c.toNat)) true
      (decide (a.toNat < v.toNat + c.toNat)) :=
  flagsAre_setFlags (congrArg FlagVal.put BitVec.msb_eq_toInt) rfl (sub8_snd_h a v c) (sub8_snd_pv a v c) rfl
    (sub8_snd_c a v c) t

/-- A bit count is even when the bits add up to 0 mod 2. -/
theorem decide_countP_even {α : Type} (p : α → Bool) (l : List α) :
    decide (l.countP p % 2 = 0) = !(l.foldr (fun x odd => p x ^^ odd) false) := by
  induction l with
  | nil => rfl
  | cons x l ih =>
    rw [List.foldr_cons, List.countP_cons, ← Bool.xor_not, ← ih]
    cases p x with
    | true =>
      simp only [if_true, Bool.true_xor, ← decide_not, decide_eq_decide]
      omega
    | false => simp

theorem parity8_eq_evenOnes (v : Byte) : parity8 v = evenOnes v := by
  simp [parity8, evenOnes, beq_eq_decide, decide_countP_even, List.range_succ]

theorem flagsAre_logicFlags (v : Byte) (h : Bool) (t : State) :
    flagsAre (setFlags (logicFlags v h) t) (decide (v.toInt < 0)) (decide (v = 0#8)) h (evenOnes v) false false :=
  flagsAre_setFlags (congrArg FlagVal.put BitVec.msb_eq_toInt) rfl rfl (congrArg FlagVal.put (parity8_eq_evenOnes v))
    rfl rfl t

/-- `INC8` when `up`, and `DEC8` otherwise (R283). -/
def incDec8 (up : Bool) : Byte → Byte × FlagSet := if up then inc8 else dec8

theorem incDec8_fst (up : Bool) (v : Byte) : (incDec8 up v).1 = if up then v + 1#8 else v - 1#8 := by cases up <;> rfl

theorem flagsAre_incDec8 (up : Bool) (v : Byte) (t : State) :
    flagsAre (setFlags (incDec8 up v).2 t) (decide ((incDec8 up v).1.toInt < 0)) (decide ((incDec8 up v).1 = 0#8))
      (decide (v.toNat % 16 = if up then 15 else 0)) (decide (v = if up then 0x7F#8 else 0x80#8)) (!up) t.cpu.f.c := by
  have hnibble (k : Byte) : (v &&& 0x0F#8 == k) = decide (v.toNat % 16 = k.toNat) := by
    simp only [beq_eq_decide, BitVec.toNat_eq, toNat_and_lowNibble]
  cases up with
  | true => exact ⟨BitVec.msb_eq_toInt (x := v + 1#8), rfl, hnibble 0x0F#8, rfl, rfl, rfl⟩
  | false => exact ⟨BitVec.msb_eq_toInt (x := v - 1#8), rfl, hnibble 0x00#8, rfl, rfl, rfl⟩

/-! ### The operand of an instruction on `A` -/

/-- Taking the operand leaves `u`: the bus reads are noted, and nothing else has changed. -/
def OperandTaken (acc : List (AccessKind × Word)) (s u : State) : Prop :=
  u.cpu = s.cpu ∧ MemoryKept s u ∧ Accessed acc s u ∧ OthersKept s u

theorem operandTaken_direct : OperandTaken [] s s := ⟨rfl, memoryKept_self s, accessed_self s, rfl⟩

theorem operandTaken_read (x : Word) : OperandTaken (reads [x]) s (read8 x s).2 :=
  ⟨rfl, by simp, accessed_read8 x, by simp⟩

/-- An instruction that ends with a register and the flags written leaves all else. -/
theorem OperandTaken.completes {α : Type} {form : Form α} {g : Reg8} {v : Byte} {fs : FlagSet}
    (hu : OperandTaken form.accesses s u) (h : exec form.instr s = done form.cost (setFlags fs (setR8 g v u))) :
    let t := setTIns form.cost (setFlags fs (setR8 g v u))
    form.completes s t ∧ RegsKept [regOf8 g] s t ∧ MemoryKept s t := by
  obtain ⟨hcpu, hmem, haccesses, hothers⟩ := hu
  exact ⟨Form.completes_of_done h (by simpa) (by simpa),
    regsKept_setR8 (regsKept_of_cpu hcpu _) (List.mem_singleton_self _) v, by simpa⟩

/-! ### Addition -/

/-- The form adds its operand, a byte and a carry, to `A`, with the flags of R280, and leaves all else. -/
def AddsToA (s : State) (form : Form (Byte × Bool)) : Prop :=
  let a := s.cpu.a
  let v := form.operand.1
  let carry := form.operand.2.toNat
  let signed := a.toInt + v.toInt + carry
  ∃ t, form.completes s t ∧ t.cpu.a = a + v + BitVec.ofNat 8 carry ∧
    flagsAre t (decide (t.cpu.a.toInt < 0)) (decide (t.cpu.a = 0#8))
      (decide (15 < a.toNat % 16 + v.toNat % 16 + carry))
      (decide (signed < -128 ∨ 127 < signed)) false (decide (255 < a.toNat + v.toNat + carry)) ∧
    RegsKept [.a] s t ∧ MemoryKept s t

theorem OperandTaken.addsToA {v : Byte} {c : Bool} (hu : OperandTaken acc s u)
    (h : exec i s = done cost (setFlags (add8 s.cpu.a v c).2 (setA (add8 s.cpu.a v c).1 u))) :
    AddsToA s { instr := i, cost := cost, operand := (v, c), accesses := acc } := by
  obtain ⟨hcompletes, hregs, hmem⟩ := hu.completes (form := ⟨i, cost, (v, c), acc⟩) (g := .a) h
  exact ⟨_, hcompletes, add8_fst _ _ _, flagsAre_add8 _ _ _ _, hregs, hmem⟩

/-- Settles O24: each form takes its operand and is one `ADD8`, with the carry 0 or the old `C`. -/
theorem addToAccumulator : Obligations.AddToAccumulator := by
  intro s src n disp ix iy c forms
  change ∀ form ∈ forms, AddsToA s form
  simp only [forms, List.forall_mem_cons]
  exact ⟨operandTaken_direct.addsToA rfl, operandTaken_direct.addsToA rfl, (operandTaken_read _).addsToA rfl,
    (operandTaken_read _).addsToA rfl, (operandTaken_read _).addsToA rfl, operandTaken_direct.addsToA rfl,
    operandTaken_direct.addsToA rfl, (operandTaken_read _).addsToA rfl, (operandTaken_read _).addsToA rfl,
    (operandTaken_read _).addsToA rfl, List.forall_mem_nil _⟩

/-! ### Subtraction and comparison -/

/-- The form subtracts its operand, a byte and a borrow, from `A`, with the flags of R281, and stores the result or
leaves `A`. -/
def SubtractsFromA (s : State) (form : Form (Byte × Bool × Bool)) : Prop :=
  let a := s.cpu.a
  let v := form.operand.1
  let borrow := form.operand.2.1.toNat
  let result := a - v - BitVec.ofNat 8 borrow
  let signed := a.toInt - v.toInt - borrow
  ∃ t, form.completes s t ∧ t.cpu.a = (if form.operand.2.2 then result else a) ∧
    flagsAre t (decide (result.toInt < 0)) (decide (result = 0#8))
      (decide (a.toNat % 16 < v.toNat % 16 + borrow))
      (decide (signed < -128 ∨ 127 < signed)) true (decide (a.toNat < v.toNat + borrow)) ∧
    RegsKept [.a] s t ∧ MemoryKept s t

/-- `CP` is the case that writes the old `A` back. -/
theorem OperandTaken.subtractsFromA {v : Byte} {c keeps : Bool} (hu : OperandTaken acc s u)
    (h : exec i s = done cost (setFlags (sub8 s.cpu.a v c).2
      (setA (if keeps then (sub8 s.cpu.a v c).1 else s.cpu.a) u))) :
    SubtractsFromA s { instr := i, cost := cost, operand := (v, c, keeps), accesses := acc } := by
  obtain ⟨hcompletes, hregs, hmem⟩ := hu.completes (form := ⟨i, cost, (v, c, keeps), acc⟩) (g := .a) h
  simp only [SubtractsFromA, ← sub8_fst]
  exact ⟨_, hcompletes, rfl, flagsAre_sub8 _ _ _ _, hregs, hmem⟩

/-- Settles O25: each form takes its operand and is one `SUB8`, with the borrow 0 or the old `C`. -/
theorem subtractFromAccumulator : Obligations.SubtractFromAccumulator := by
  intro s src n disp ix iy c forms
  change ∀ form ∈ forms, SubtractsFromA s form
  simp only [forms, List.forall_mem_cons]
  exact ⟨operandTaken_direct.subtractsFromA rfl, operandTaken_direct.subtractsFromA rfl,
    (operandTaken_read _).subtractsFromA rfl, (operandTaken_read _).subtractsFromA rfl,
    (operandTaken_read _).subtractsFromA rfl, operandTaken_direct.subtractsFromA rfl,
    operandTaken_direct.subtractsFromA rfl, (operandTaken_read _).subtractsFromA rfl,
    (operandTaken_read _).subtractsFromA rfl, (operandTaken_read _).subtractsFromA rfl,
    operandTaken_direct.subtractsFromA rfl, operandTaken_direct.subtractsFromA rfl,
    (operandTaken_read _).subtractsFromA rfl, (operandTaken_read _).subtractsFromA rfl,
    (operandTaken_read _).subtractsFromA rfl, List.forall_mem_nil _⟩

/-! ### Logic -/

/-- The form puts its operand, the bitwise result, in `A`, and sets the flags of R282 with its `H`. -/
def PutsLogicInA (s : State) (form : Form (Byte × Bool)) : Prop :=
  ∃ t, form.completes s t ∧ t.cpu.a = form.operand.1 ∧
    flagsAre t (decide (form.operand.1.toInt < 0)) (decide (form.operand.1 = 0#8)) form.operand.2
      (evenOnes form.operand.1) false false ∧
    RegsKept [.a] s t ∧ MemoryKept s t

theorem OperandTaken.putsLogicInA {v : Byte} {half : Bool} (hu : OperandTaken acc s u)
    (h : exec i s = done cost (setFlags (logicFlags v half) (setA v u))) :
    PutsLogicInA s { instr := i, cost := cost, operand := (v, half), accesses := acc } := by
  obtain ⟨hcompletes, hregs, hmem⟩ := hu.completes (form := ⟨i, cost, (v, half), acc⟩) (g := .a) h
  exact ⟨_, hcompletes, rfl, flagsAre_logicFlags _ _ _, hregs, hmem⟩

/-- Settles O26: each form takes its operand and puts the bitwise result in `A`, with the flags of `LOGIC`. -/
theorem logicOnAccumulator : Obligations.LogicOnAccumulator := by
  intro s src n disp ix iy a forms
  change ∀ form ∈ forms, PutsLogicInA s form
  simp only [forms, List.forall_mem_cons]
  exact ⟨operandTaken_direct.putsLogicInA rfl, operandTaken_direct.putsLogicInA rfl,
    (operandTaken_read _).putsLogicInA rfl, (operandTaken_read _).putsLogicInA rfl,
    (operandTaken_read _).putsLogicInA rfl, operandTaken_direct.putsLogicInA rfl,
    operandTaken_direct.putsLogicInA rfl, (operandTaken_read _).putsLogicInA rfl,
    (operandTaken_read _).putsLogicInA rfl, (operandTaken_read _).putsLogicInA rfl,
    operandTaken_direct.putsLogicInA rfl, operandTaken_direct.putsLogicInA rfl,
    (operandTaken_read _).putsLogicInA rfl, (operandTaken_read _).putsLogicInA rfl,
    (operandTaken_read _).putsLogicInA rfl, List.forall_mem_nil _⟩

/-! ### Increment and decrement -/

/-- All that reading a byte, changing it and writing it back does. -/
theorem modifyAt_spec (hw : Memory.wf s.cfg s.mem = true) (x : Word) (f : Byte → Byte × FlagSet) :
    let t := modifyAt x f s
    Stored [(x, (f (peek s x)).1)] s t ∧ RegsKept [] s t ∧ Accessed [(.read, x), (.write, x)] s t ∧ OthersKept s t := by
  have hstored : Stored [(x, (f (peek s x)).1)] s (write8 x (f (peek s x)).1 (read8 x s).2) :=
    ((Stored.refl s).congr (u := (read8 x s).2) rfl rfl rfl).write8 rfl rfl hw x _
  have haccesses := (accessed_read8 (s := s) x).write x (f (peek s x)).1
  exact ⟨(stored_setFlags ..).mpr hstored, by simp [modifyAt], (accessed_setFlags ..).mpr haccesses,
    by simp [modifyAt]⟩

/-- The form replaces register `dst` by its successor or predecessor, with the flags of R283. -/
def StepsRegister (s : State) (dst : Reg8) (form : Form Bool) : Prop :=
  let v := r8 s dst
  ∃ t, form.completes s t ∧ r8 t dst = (if form.operand then v + 1#8 else v - 1#8) ∧
    flagsAre t (decide ((r8 t dst).toInt < 0)) (decide (r8 t dst = 0#8))
      (decide (v.toNat % 16 = if form.operand then 15 else 0))
      (decide (v = if form.operand then 0x7F#8 else 0x80#8)) (!form.operand) s.cpu.f.c ∧
    RegsKept [regOf8 dst] s t ∧ MemoryKept s t

theorem stepsRegister_modifyReg {dst : Reg8} {up : Bool} (h : exec i s = done cost (modifyReg dst (incDec8 up) s)) :
    StepsRegister s dst { instr := i, cost := cost, operand := up } := by
  obtain ⟨hcompletes, hregs, hmem⟩ :=
    operandTaken_direct.completes (form := { instr := i, cost := cost, operand := up }) h
  have hresult (n : Nat) (fs : FlagSet) (v : Byte) : r8 (setTIns n (setFlags fs (setR8 dst v s))) dst = v :=
    r8_setR8 s dst v
  simp only [StepsRegister, ← incDec8_fst]
  refine ⟨_, hcompletes, hresult _ _ _, ?_, hregs, hmem⟩
  rw [hresult, ← setR8_cpu_f (s := s) dst]
  exact flagsAre_incDec8 up _ _

/-- The form replaces the byte at its address by its successor or predecessor, with the flags of R283. -/
def StepsByteAt (s : State) (form : Form (Bool × Word)) : Prop :=
  let v := peek s form.operand.2
  let result := if form.operand.1 then v + 1#8 else v - 1#8
  ∃ t, form.completes s t ∧ Stored [(form.operand.2, result)] s t ∧
    flagsAre t (decide (result.toInt < 0)) (decide (result = 0#8))
      (decide (v.toNat % 16 = if form.operand.1 then 15 else 0))
      (decide (v = if form.operand.1 then 0x7F#8 else 0x80#8)) (!form.operand.1) s.cpu.f.c ∧
    RegsKept [] s t

theorem stepsByteAt_modifyAt (hw : Memory.wf s.cfg s.mem = true) {x : Word} {up : Bool}
    (h : exec i s = done cost (modifyAt x (incDec8 up) s)) :
    StepsByteAt s { instr := i, cost := cost, operand := (up, x), accesses := [(.read, x), (.write, x)] } := by
  obtain ⟨hstored, hregs, haccesses, hothers⟩ := modifyAt_spec hw x (incDec8 up)
  simp only [StepsByteAt, ← incDec8_fst]
  exact ⟨_, Form.completes_of_done h haccesses hothers, (stored_setTIns ..).mpr hstored, flagsAre_incDec8 up _ _,
    hregs⟩

/-- Settles O27: each form changes a register or a byte of memory by `INC8` or `DEC8`. -/
theorem incrementDecrementByte : Obligations.IncrementDecrementByte := by
  intro s dst disp hw ix iy rmw
  constructor
  · change ∀ form ∈ _, StepsRegister s dst form
    simp only [List.forall_mem_cons]
    exact ⟨stepsRegister_modifyReg rfl, stepsRegister_modifyReg rfl, List.forall_mem_nil _⟩
  · change ∀ form ∈ _, StepsByteAt s form
    simp only [List.forall_mem_cons]
    exact ⟨stepsByteAt_modifyAt hw rfl, stepsByteAt_modifyAt hw rfl, stepsByteAt_modifyAt hw rfl,
      stepsByteAt_modifyAt hw rfl, stepsByteAt_modifyAt hw rfl, stepsByteAt_modifyAt hw rfl, List.forall_mem_nil _⟩

end Sys2Proof.Machine
end

section
/-! PROOFS. General arithmetic and CPU control (44_general_cpu.md R340 to R351). -/

namespace Sys2Proof.Machine

variable {s : State} {i : Instr} {cost : Nat}

/-! ### `DAA` as arithmetic on the numbers -/

/-- The carry of `DAA`: `C`, or a byte above 0x99 (R340). -/
def daaCarry (a : Byte) (f : Flags) : Bool := f.c || decide (0x99 < a.toNat)

/-- The correction of `DAA`: 6 for the low digit, and 0x60 for the high digit (R340). -/
def daaCorrection (a : Byte) (f : Flags) : Nat :=
  (if f.h ∨ 9 < a.toNat % 16 then 6 else 0) + (if daaCarry a f then 0x60 else 0)

/-- The corrected byte of `DAA`: subtracted after a subtraction, and added otherwise (R340). -/
def daaResult (a : Byte) (f : Flags) : Byte :=
  BitVec.ofNat 8 (if f.n then a.toNat + 256 - daaCorrection a f else a.toNat + daaCorrection a f)

theorem daaCorrection_le (a : Byte) (f : Flags) : daaCorrection a f ≤ 0x66 := by
  simp only [daaCorrection]
  split_ifs <;> decide

theorem daaCorrection_eq {a : Byte} {f : Flags} {low high : Prop} [Decidable low] [Decidable high]
    (hlow : (f.h ∨ 9 < a.toNat % 16) ↔ low) (hhigh : daaCarry a f = decide high) :
    daaCorrection a f = (if low then 6 else 0) + (if high then 0x60 else 0) := by
  simp [daaCorrection, hlow, hhigh]

theorem daaAdjust_snd_h (a : Byte) (f : Flags) : (daaAdjust a f).2.h =
    .put (decide (if f.n then f.h = true ∧ a.toNat % 16 < 6 else 9 < a.toNat % 16)) := by
  simp only [daaAdjust, gt_iff_lt, BitVec.lt_def, toNat_and_lowNibble]
  cases f.n <;> simp

/-- The two parts of the correction have no bit in common, so that their `OR` is their sum. -/
theorem daaAdjust_fst (a : Byte) (f : Flags) : (daaAdjust a f).1 = daaResult a f := by
  have hcorrection : (daaAdjust a f).1 = if f.n then a - BitVec.ofNat 8 (daaCorrection a f)
      else a + BitVec.ofNat 8 (daaCorrection a f) := by
    simp only [daaAdjust, daaCorrection, daaCarry, gt_iff_lt, BitVec.lt_def, toNat_and_lowNibble, BitVec.toNat_ofNat,
      Nat.reducePow, Nat.reduceMod, Bool.or_eq_true, decide_eq_true_eq]
    split_ifs <;> rfl
  have hle := daaCorrection_le a f
  rw [hcorrection, daaResult]
  split_ifs
  · rw [BitVec.toNat_eq, BitVec.toNat_sub, BitVec.toNat_ofNat, BitVec.toNat_ofNat]
    omega
  · rw [BitVec.ofNat_add, BitVec.ofNat_toNat, BitVec.setWidth_eq]

theorem flagsAre_daaAdjust (a : Byte) (t : State) :
    flagsAre (setFlags (daaAdjust a t.cpu.f).2 t) (decide ((daaResult a t.cpu.f).toInt < 0))
      (decide (daaResult a t.cpu.f = 0#8))
      (decide (if t.cpu.f.n then t.cpu.f.h = true ∧ a.toNat % 16 < 6 else 9 < a.toNat % 16))
      (evenOnes (daaResult a t.cpu.f)) t.cpu.f.n (daaCarry a t.cpu.f) := by
  have hh := congrArg (FlagVal.apply t.cpu.f.h (t.draws + 2)) (daaAdjust_snd_h a t.cpu.f)
  rw [← daaAdjust_fst]
  exact ⟨BitVec.msb_eq_toInt (x := (daaAdjust a t.cpu.f).1), rfl, hh, parity8_eq_evenOnes _, rfl, rfl⟩

/-! ### The accumulator and the flags -/

/-- `DAA` puts the corrected byte in `A`, with the flags of R340, and leaves all else. -/
def AdjustsA (s : State) : Prop :=
  let a := s.cpu.a
  let f := s.cpu.f
  let result := daaResult a f
  let form : Form Unit := { instr := .daa, cost := 4, operand := () }
  ∃ t, form.completes s t ∧ t.cpu.a = result ∧
    flagsAre t (decide (result.toInt < 0)) (decide (result = 0#8))
      (decide (if f.n then f.h = true ∧ a.toNat % 16 < 6 else 9 < a.toNat % 16)) (evenOnes result) f.n
      (daaCarry a f) ∧
    RegsKept [.a] s t ∧ MemoryKept s t

theorem adjustsA_daa (s : State) : AdjustsA s := by
  obtain ⟨hcompletes, hregs, hmem⟩ := operandTaken_direct.completes (s := s)
    (form := { instr := .daa, cost := 4, operand := () }) (g := .a) rfl
  exact ⟨_, hcompletes, daaAdjust_fst _ _, flagsAre_daaAdjust s.cpu.a (setA _ s), hregs, hmem⟩

/-- An instruction that only sets flags leaves all else. -/
theorem completes_setFlags {fs : FlagSet} (h : exec i s = done cost (setFlags fs s)) :
    let t := setTIns cost (setFlags fs s)
    ({ instr := i, cost := cost, operand := () } : Form Unit).completes s t ∧ RegsKept [] s t ∧ MemoryKept s t :=
  ⟨Form.completes_of_done h (by simp) (by simp), by simp, by simp⟩

/-- The flags of `NEG`: those of a subtraction from 0 (R342). -/
theorem flagsAre_sub8_zero (a : Byte) (t : State) :
    flagsAre (setFlags (sub8 0#8 a false).2 t) (decide ((sub8 0#8 a false).1.toInt < 0))
      (decide ((sub8 0#8 a false).1 = 0#8)) (decide (a.toNat % 16 ≠ 0)) (decide (a = 0x80#8)) true
      (decide (a ≠ 0#8)) := by
  obtain ⟨hs, hz, hh, hpv, hn, hc⟩ := flagsAre_sub8 0#8 a false t
  refine ⟨hs, hz, hh.trans ?_, hpv.trans ?_, hn, hc.trans ?_⟩ <;> rw [decide_eq_decide]
  · simp [Nat.pos_iff_ne_zero]
  · simp only [BitVec.toInt_eq_toNat_cond, BitVec.toNat_eq, BitVec.toNat_ofNat, Bool.toNat_false]
    split_ifs <;> omega
  · simp [BitVec.toNat_eq, Nat.pos_iff_ne_zero]

/-- Settles O28: `DAA`, `CPL` and `NEG` write `A` and the flags, `CCF` and `SCF` the flags alone. -/
theorem accumulatorAdjustments : Obligations.AccumulatorAdjustments := by
  intro s a f form
  refine ⟨adjustsA_daa s, ?_, ?_, ?_, ?_⟩
  · obtain ⟨hcompletes, hregs, hmem⟩ := operandTaken_direct.completes (form := form .cpl 4) (g := .a) rfl
    exact ⟨_, hcompletes, BitVec.toNat_not, ⟨rfl, rfl, rfl, rfl, rfl, rfl⟩, hregs, hmem⟩
  · obtain ⟨hcompletes, hregs, hmem⟩ := operandTaken_direct.completes (form := form .neg 8) (g := .a) rfl
    exact ⟨_, hcompletes, (sub8_fst 0#8 a false).trans (BitVec.sub_zero _), flagsAre_sub8_zero a _, hregs, hmem⟩
  · obtain ⟨hcompletes, hregs, hmem⟩ := completes_setFlags (s := s) (i := .ccf) rfl
    exact ⟨_, hcompletes, ⟨rfl, rfl, rfl, rfl, rfl, rfl⟩, hregs, hmem⟩
  · obtain ⟨hcompletes, hregs, hmem⟩ := completes_setFlags (s := s) (i := .scf) rfl
    exact ⟨_, hcompletes, ⟨rfl, rfl, rfl, rfl, rfl, rfl⟩, hregs, hmem⟩

/-! ### `DAA` on packed decimal digits -/

theorem toNat_bcd {x : Nat} (hx : x < 100) : (bcd x).toNat = x / 10 * 16 + x % 10 := by
  rw [bcd, BitVec.toNat_ofNat]
  omega

/-- After an addition of packed digits: the carry of `DAA` is that of the decimal sum, the low digit is corrected when
its own sum is 10 or more, and so each digit of the sum is right. -/
theorem daa_add_bcd {x y : Nat} (hx : x < 100) (hy : y < 100) {f : Flags} (hn : f.n = false)
    (hh : f.h = decide (15 < (bcd x).toNat % 16 + (bcd y).toNat % 16))
    (hc : f.c = decide (255 < (bcd x).toNat + (bcd y).toNat)) :
    daaCarry (bcd x + bcd y) f = decide (100 ≤ x + y) ∧ daaResult (bcd x + bcd y) f = bcd ((x + y) % 100) := by
  rw [toNat_bcd hx, toNat_bcd hy] at hh hc
  have hsum : (bcd x + bcd y).toNat = (x / 10 * 16 + x % 10 + (y / 10 * 16 + y % 10)) % 256 := by
    rw [BitVec.toNat_add, toNat_bcd hx, toNat_bcd hy]
  have hcarry : daaCarry (bcd x + bcd y) f = decide (100 ≤ x + y) := by
    have hdecimal : 0x99 < x / 10 * 16 + x % 10 + (y / 10 * 16 + y % 10) ↔ 100 ≤ x + y := by omega
    rw [daaCarry, hsum, hc, ← Bool.decide_or, decide_eq_decide, ← hdecimal]
    omega
  have hlow : (f.h ∨ 9 < (bcd x + bcd y).toNat % 16) ↔ 10 ≤ x % 10 + y % 10 := by
    rw [hsum, hh, decide_eq_true_eq]
    omega
  refine ⟨hcarry, ?_⟩
  rw [daaResult, daaCorrection_eq hlow hcarry, hn, if_neg Bool.false_ne_true, hsum, BitVec.toNat_eq, BitVec.toNat_ofNat,
    toNat_bcd (Nat.mod_lt _ (by decide))]
  clear hlow
  split_ifs <;> omega

/-- After a subtraction of packed digits: the carry of `DAA` is the decimal borrow, the low digit is corrected when it
borrows, and so each digit of the difference is right. -/
theorem daa_sub_bcd {x y : Nat} (hx : x < 100) (hy : y < 100) {f : Flags} (hn : f.n = true)
    (hh : f.h = decide ((bcd x).toNat % 16 < (bcd y).toNat % 16)) (hc : f.c = decide ((bcd x).toNat < (bcd y).toNat)) :
    daaCarry (bcd x - bcd y) f = decide (x < y) ∧ daaResult (bcd x - bcd y) f = bcd ((x + 100 - y) % 100) := by
  rw [toNat_bcd hx, toNat_bcd hy] at hh hc
  have hdiff : (bcd x - bcd y).toNat = (256 - (y / 10 * 16 + y % 10) + (x / 10 * 16 + x % 10)) % 256 := by
    rw [BitVec.toNat_sub, toNat_bcd hx, toNat_bcd hy]
  have hcarry : daaCarry (bcd x - bcd y) f = decide (x < y) := by
    have hdecimal : x / 10 * 16 + x % 10 < y / 10 * 16 + y % 10 ↔ x < y := by omega
    rw [daaCarry, hdiff, hc, ← Bool.decide_or, decide_eq_decide, ← hdecimal]
    omega
  have hlow : (f.h ∨ 9 < (bcd x - bcd y).toNat % 16) ↔ x % 10 < y % 10 := by
    rw [hdiff, hh, decide_eq_true_eq]
    omega
  refine ⟨hcarry, ?_⟩
  rw [daaResult, daaCorrection_eq hlow hcarry, hn, if_pos rfl, hdiff, BitVec.toNat_eq, BitVec.toNat_ofNat,
    toNat_bcd (Nat.mod_lt _ (by decide))]
  clear hlow
  split_ifs <;> omega

/-- Settles O29: the `H`, `N` and `C` that `ADD` and `SUB` leave are what `DAA` needs to correct both digits. -/
theorem decimalArithmetic : Obligations.DecimalArithmetic := by
  intro s x y hx hy ha
  constructor
  · obtain ⟨t, ⟨hadd, _⟩, hsum, ⟨_, _, hh, _, hn, hc⟩, _⟩ :=
      (operandTaken_direct (s := s)).addsToA (i := .addAN (bcd y)) (c := false) rfl
    obtain ⟨u, ⟨hdaa, _⟩, hresult, ⟨_, _, _, _, _, hcarry⟩, _⟩ := adjustsA_daa t
    simp only [ha, Bool.toNat_false, BitVec.add_zero, Nat.add_zero] at hsum hh hc
    obtain ⟨hdigitCarry, hdigits⟩ := daa_add_bcd hx hy hn hh hc
    rw [hsum] at hresult hcarry
    exact ⟨t, u, hadd, hdaa, hresult.trans hdigits, hcarry.trans hdigitCarry⟩
  · obtain ⟨t, ⟨hsub, _⟩, hdiff, ⟨_, _, hh, _, hn, hc⟩, _⟩ :=
      (operandTaken_direct (s := s)).subtractsFromA (i := .subN (bcd y)) (c := false) (keeps := true) rfl
    obtain ⟨u, ⟨hdaa, _⟩, hresult, ⟨_, _, _, _, _, hcarry⟩, _⟩ := adjustsA_daa t
    simp only [ha, Bool.toNat_false, BitVec.sub_zero, Nat.add_zero, if_true] at hdiff hh hc
    obtain ⟨hdigitCarry, hdigits⟩ := daa_sub_bcd hx hy hn hh hc
    rw [hdiff] at hresult hcarry
    exact ⟨t, u, hsub, hdaa, hresult.trans hdigits, hcarry.trans hdigitCarry⟩

/-! ### CPU control -/

/-- An instruction that only changes hidden state, flip-flops, the mode or `PC` leaves the flags, the other registers
and memory. -/
theorem completes_cpu {cpu : Cpu} {written : List Reg} (h : exec i s = done cost { s with cpu := cpu })
    (hflags : cpu.f = s.cpu.f) (hregs : RegsKept written s { s with cpu := cpu }) :
    let t := setTIns cost { s with cpu := cpu }
    ({ instr := i, cost := cost, operand := () } : Form Unit).completes s t ∧ FlagsKept s t ∧
      RegsKept written s t ∧ MemoryKept s t :=
  ⟨Form.completes_of_done h (accessed_self s) rfl, hflags, hregs, memoryKept_self s⟩

theorem regsKept_halt : RegsKept [.halted, .pc] s { s with cpu := { s.cpu with halted := true, pc := s.pc0 } } := by
  intro reg hreg
  cases reg with
  | halted | pc => exact absurd (by decide) hreg
  | _ => rfl

theorem regsKept_disable :
    RegsKept [.iff1, .iff2] s { s with cpu := { s.cpu with iff1 := false, iff2 := false } } := by
  intro reg hreg
  cases reg with
  | iff1 | iff2 => exact absurd (by decide) hreg
  | _ => rfl

theorem regsKept_enable : RegsKept [.iff1, .iff2, .eiShadow] s
    { s with cpu := { s.cpu with iff1 := true, iff2 := true, eiShadow := true } } := by
  intro reg hreg
  cases reg with
  | iff1 | iff2 | eiShadow => exact absurd (by decide) hreg
  | _ => rfl

theorem regsKept_mode (mode : IntMode) : RegsKept [.im] s { s with cpu := { s.cpu with im := mode } } := by
  intro reg hreg
  cases reg with
  | im => exact absurd (by decide) hreg
  | _ => rfl

/-- Settles O30: each instruction writes at most the registers it names. -/
theorem cpuControl : Obligations.CpuControl := by
  intro s quiet
  exact ⟨⟨_, completes_cpu rfl rfl (regsKept_self s [])⟩,
    ⟨_, completes_cpu rfl rfl regsKept_halt, rfl, rfl⟩,
    ⟨_, completes_cpu rfl rfl regsKept_disable, rfl, rfl⟩,
    ⟨_, completes_cpu rfl rfl regsKept_enable, rfl, rfl, rfl⟩,
    ⟨_, completes_cpu rfl rfl (regsKept_mode .im0), rfl⟩,
    ⟨_, completes_cpu rfl rfl (regsKept_mode .im1), rfl⟩,
    ⟨_, completes_cpu rfl rfl (regsKept_mode .im2), rfl⟩⟩

end Sys2Proof.Machine
end

section
/-! PROOFS. 16-bit arithmetic (45_arith16.md R360 to R370). -/

namespace Sys2Proof.Machine

variable {s : State} {i : Instr} {cost : Nat} {r : HostReg16} {v : Word}

/-! ### The flags of the rules, as arithmetic on the numbers -/

theorem and_intMin_bne_zero {w : Nat} (x : BitVec w) : (x &&& BitVec.intMin w != 0#w) = x.msb := by
  have hbit : x &&& BitVec.intMin w = if x.msb then BitVec.intMin w else 0#w := by
    rw [BitVec.msb_eq_getLsbD_last]
    exact BitVec.and_twoPow x (w - 1)
  cases hmsb : x.msb with
  | false => simp [hbit, hmsb]
  | true =>
    have hpos : 0 < w := BitVec.lt_of_getMsbD hmsb
    simpa [hbit, hmsb] using hpos.ne'

/-- The overflow flags of R361 and R362 test bit 15 of two differences: `x` and `y` differ in sign, and so do `z` and
`u`. -/
theorem xor_and_xor_intMin_bne_zero {w : Nat} (x y z u : BitVec w) :
    ((x ^^^ y) &&& (z ^^^ u) &&& BitVec.intMin w != 0#w) = (x.msb != y.msb && z.msb != u.msb) := by
  rw [and_intMin_bne_zero, BitVec.msb_and, BitVec.msb_xor, BitVec.msb_xor]

/-- The sum of R360 is that of the words mod 65536. -/
theorem add16_fst (a b : Word) : (add16 a b).1 = a + b := by simp [add16, BitVec.ofNat_add]

/-- The sum of R361 is that of the words and the carry mod 65536. -/
theorem adc16_fst (a b : Word) (c : Bool) : (adc16 a b c).1 = a + b + BitVec.ofNat 16 c.toNat := by
  simp [adc16, BitVec.ofNat_add]

/-- The difference of R362 is that of the words and the borrow mod 65536. -/
theorem sbc16_fst (a b : Word) (c : Bool) : (sbc16 a b c).1 = a - b - BitVec.ofNat 16 c.toNat := by
  simp [sbc16, sub_eq_add_neg, BitVec.ofInt_add, BitVec.ofInt_neg]

/-- `ADC HL,ss` sets `PV` when the signed sum does not fit (R361). -/
theorem adc16_snd_pv (a b : Word) (c : Bool) : (adc16 a b c).2.pv =
    .put (decide (a.toInt + b.toInt + c.toNat < -32768 ∨ 32767 < a.toInt + b.toInt + c.toNat)) := by
  have hc := c.toNat_lt
  refine congrArg FlagVal.put ((xor_and_xor_intMin_bne_zero ..).trans ?_)
  rw [Bool.eq_iff_iff]
  simp only [Bool.and_eq_true, bne_iff_ne, ne_eq, BitVec.msb_eq_decide, decide_eq_decide, decide_eq_true_eq,
    BitVec.toInt_eq_toNat_cond, BitVec.toNat_ofNat]
  split_ifs <;> omega

/-- `SBC HL,ss` sets `PV` when the signed difference does not fit (R362). -/
theorem sbc16_snd_pv (a b : Word) (c : Bool) : (sbc16 a b c).2.pv =
    .put (decide (a.toInt - b.toInt - c.toNat < -32768 ∨ 32767 < a.toInt - b.toInt - c.toNat)) := by
  have hc := c.toNat_lt
  refine congrArg FlagVal.put ((xor_and_xor_intMin_bne_zero ..).trans ?_)
  rw [Bool.eq_iff_iff]
  simp only [Bool.and_eq_true, bne_iff_ne, ne_eq, BitVec.msb_eq_decide, decide_eq_decide, decide_eq_true_eq,
    BitVec.toInt_eq_toNat_cond, BitVec.toNat_ofInt]
  split_ifs <;> omega

/-- The half borrow of `SBC HL,ss` (R362). -/
theorem sbc16_snd_h (a b : Word) (c : Bool) :
    (sbc16 a b c).2.h = .put (decide (a.toNat % 4096 < b.toNat % 4096 + c.toNat)) := by
  simp only [sbc16, FlagVal.put.injEq, decide_eq_decide]
  omega

/-- The borrow of `SBC HL,ss` (R362). -/
theorem sbc16_snd_c (a b : Word) (c : Bool) : (sbc16 a b c).2.c = .put (decide (a.toNat < b.toNat + c.toNat)) := by
  simp only [sbc16, FlagVal.put.injEq, decide_eq_decide]
  omega

theorem flagsAre_add16 (a b : Word) (t : State) :
    flagsAre (setFlags (add16 a b).2 t) t.cpu.f.s t.cpu.f.z (decide (4095 < a.toNat % 4096 + b.toNat % 4096))
      t.cpu.f.pv false (decide (65535 < a.toNat + b.toNat)) :=
  ⟨rfl, rfl, rfl, rfl, rfl, rfl⟩

theorem flagsAre_adc16 (a b : Word) (c : Bool) (t : State) :
    flagsAre (setFlags (adc16 a b c).2 t) (decide ((adc16 a b c).1.toInt < 0)) (decide ((adc16 a b c).1 = 0#16))
      (decide (4095 < a.toNat % 4096 + b.toNat % 4096 + c.toNat))
      (decide (a.toInt + b.toInt + c.toNat < -32768 ∨ 32767 < a.toInt + b.toInt + c.toNat)) false
      (decide (65535 < a.toNat + b.toNat + c.toNat)) :=
  flagsAre_setFlags (congrArg FlagVal.put BitVec.msb_eq_toInt) rfl rfl (adc16_snd_pv a b c) rfl rfl t

theorem flagsAre_sbc16 (a b : Word) (c : Bool) (t : State) :
    flagsAre (setFlags (sbc16 a b c).2 t) (decide ((sbc16 a b c).1.toInt < 0)) (decide ((sbc16 a b c).1 = 0#16))
      (decide (a.toNat % 4096 < b.toNat % 4096 + c.toNat))
      (decide (a.toInt - b.toInt - c.toNat < -32768 ∨ 32767 < a.toInt - b.toInt - c.toNat)) true
      (decide (a.toNat < b.toNat + c.toNat)) :=
  flagsAre_setFlags (congrArg FlagVal.put BitVec.msb_eq_toInt) rfl (sbc16_snd_h a b c) (sbc16_snd_pv a b c) rfl
    (sbc16_snd_c a b c) t

/-! ### Addition and subtraction -/

/-- Only `AF` holds flags. -/
theorem hostGet16_setFlags (hr : r ≠ .af) (fs : FlagSet) (s : State) : hostGet16 (setFlags fs s) r = hostGet16 s r := by
  cases r with
  | af => exact absurd rfl hr
  | _ => rfl

/-- An instruction that ends with a 16-bit register and the flags written leaves all else. -/
theorem completes_setFlags_hostSet16 {α : Type} {operand : α} {fs : FlagSet} (hr : r ≠ .af ∧ r ≠ .pc)
    (h : exec i s = done cost (setFlags fs (hostSet16 r v s))) :
    let t := setTIns cost (setFlags fs (hostSet16 r v s))
    ({ instr := i, cost := cost, operand := operand } : Form α).completes s t ∧ hostGet16 t r = v ∧
      RegsKept (regsOfPair r) s t ∧ MemoryKept s t :=
  ⟨Form.completes_of_done h (by simp) (by simp),
    (hostGet16_setFlags hr.1 fs _).trans (hostGet16_hostSet16 r v s),
    regsKept_hostSet16 (regsKept_self s _) hr.2 (List.Subset.refl _) v, by simp⟩

/-- The form adds its operand to the 16-bit register it names, with the flags of R360, and leaves all else. -/
def AddsWord (s : State) (form : Form (HostReg16 × Word)) : Prop :=
  let a := hostGet16 s form.operand.1
  let b := form.operand.2
  ∃ t, form.completes s t ∧ hostGet16 t form.operand.1 = a + b ∧
    flagsAre t s.cpu.f.s s.cpu.f.z (decide (4095 < a.toNat % 4096 + b.toNat % 4096)) s.cpu.f.pv false
      (decide (65535 < a.toNat + b.toNat)) ∧
    RegsKept (regsOfPair form.operand.1) s t ∧ MemoryKept s t

theorem addsWord_add16 (hr : r ≠ .af ∧ r ≠ .pc)
    (h : exec i s = done cost
      (setFlags (add16 (hostGet16 s r) v).2 (hostSet16 r (add16 (hostGet16 s r) v).1 s))) :
    AddsWord s { instr := i, cost := cost, operand := (r, v) } := by
  obtain ⟨hcompletes, hsum, hregs, hmem⟩ := completes_setFlags_hostSet16 (operand := (r, v)) hr h
  have hflags := flagsAre_add16 (hostGet16 s r) v (hostSet16 r (add16 (hostGet16 s r) v).1 s)
  rw [hostSet16_cpu_f hr.1] at hflags
  exact ⟨_, hcompletes, hsum.trans (add16_fst _ _), hflags, hregs, hmem⟩

/-- Settles O31: each form is one 16-bit sum or difference, written to its register with the flags of its rule. -/
theorem wordArithmetic : Obligations.WordArithmetic := by
  intro s ss pp rr f c
  simp only [hostGet16_pairOf16]
  refine ⟨?add, ?adc, ?sbc⟩
  case add =>
    change ∀ form ∈ _, AddsWord s form
    simp only [List.forall_mem_cons]
    exact ⟨addsWord_add16 (by decide) rfl, addsWord_add16 (by decide) rfl, addsWord_add16 (by decide) rfl,
      List.forall_mem_nil _⟩
  case adc =>
    obtain ⟨hcompletes, hsum, hregs, hmem⟩ := completes_setFlags_hostSet16 (s := s) (i := .adcHLSS ss) (r := .hl)
      (operand := ()) (by decide) rfl
    have hflags := flagsAre_adc16 (hl s) (r16 s ss) s.cpu.f.c (setHL (adc16 (hl s) (r16 s ss) s.cpu.f.c).1 s)
    rw [← hsum] at hflags
    exact ⟨_, hcompletes, hsum.trans (adc16_fst _ _ _), hflags, hregs, hmem⟩
  case sbc =>
    obtain ⟨hcompletes, hdiff, hregs, hmem⟩ := completes_setFlags_hostSet16 (s := s) (i := .sbcHLSS ss) (r := .hl)
      (operand := ()) (by decide) rfl
    have hflags := flagsAre_sbc16 (hl s) (r16 s ss) s.cpu.f.c (setHL (sbc16 (hl s) (r16 s ss) s.cpu.f.c).1 s)
    rw [← hdiff] at hflags
    exact ⟨_, hcompletes, hdiff.trans (sbc16_fst _ _ _), hflags, hregs, hmem⟩

/-! ### Increment and decrement -/

/-- The form adds its operand to the 16-bit register it names, and leaves all else, the flags too. -/
def StepsWord (s : State) (form : Form (HostReg16 × Word)) : Prop :=
  ∃ t, form.completes s t ∧ hostGet16 t form.operand.1 = hostGet16 s form.operand.1 + form.operand.2 ∧
    FlagsKept s t ∧ RegsKept (regsOfPair form.operand.1) s t ∧ MemoryKept s t

/-- A step is a load of the stepped value. -/
theorem stepsWord_hostSet16 (hr : r ≠ .af ∧ r ≠ .pc) (h : exec i s = done cost (hostSet16 r (hostGet16 s r + v) s)) :
    StepsWord s { instr := i, cost := cost, operand := (r, v) } :=
  loadsWord_direct hr h

/-- Settles O32: each form is one write of the register plus 1, or plus -1 mod 65536. -/
theorem incrementDecrementWord : Obligations.IncrementDecrementWord := by
  intro s ss forms
  have hback (x : Word) : x - 1#16 = x + 0xFFFF#16 := BitVec.sub_eq_add_neg x 1#16
  have hinc : exec (.incSS ss) s = done 6 (hostSet16 (pairOf16 ss) (hostGet16 s (pairOf16 ss) + 1#16) s) := by
    rw [hostGet16_pairOf16, ← setR16_eq_hostSet16]
    rfl
  have hdec : exec (.decSS ss) s = done 6 (hostSet16 (pairOf16 ss) (hostGet16 s (pairOf16 ss) + 0xFFFF#16) s) := by
    rw [hostGet16_pairOf16, ← setR16_eq_hostSet16]
    exact congrArg (fun v => done 6 (setR16 ss v s)) (hback _)
  change ∀ form ∈ forms, StepsWord s form
  simp only [forms, List.forall_mem_cons]
  exact ⟨stepsWord_hostSet16 (pairOf16_ne_af_pc ss) hinc, stepsWord_hostSet16 (by decide) rfl,
    stepsWord_hostSet16 (by decide) rfl, stepsWord_hostSet16 (pairOf16_ne_af_pc ss) hdec,
    stepsWord_hostSet16 (by decide) (congrArg (fun v => done 10 (setIX v s)) (hback _)),
    stepsWord_hostSet16 (by decide) (congrArg (fun v => done 10 (setIY v s)) (hback _)),
    List.forall_mem_nil _⟩

end Sys2Proof.Machine
end

section
/-! PROOFS. Rotates and shifts (46_rotate_shift.md R380 to R415). -/

namespace Sys2Proof.Machine

variable {s : State} {i : Instr} {cost : Nat} {f : Byte → Byte × Bool}

/-! ### Results and bits moved out -/

theorem getElem_shiftLeft1 (v : Byte) (low : Bool) (k : Nat) (hk : k < 8) :
    (shiftLeft1 v low)[k] = if k = 0 then low else v[k - 1] := by
  refine (BitVec.getElem_append (x := v.extractLsb' 0 7) (y := BitVec.ofBool low) hk).trans ?_
  cases k with
  | zero => simp
  | succ k => simp [BitVec.getLsbD_eq_getElem (show k < 8 by omega)]

theorem getElem_shiftRight1 (high : Bool) (v : Byte) (k : Nat) (hk : k < 8) :
    (shiftRight1 high v)[k] = if h : k < 7 then v[k + 1] else high := by
  refine (BitVec.getElem_append (x := BitVec.ofBool high) (y := v.extractLsb' 1 7) hk).trans ?_
  by_cases h : k < 7
  · simp [h, Nat.add_comm, BitVec.getLsbD_eq_getElem (show k + 1 < 8 by omega)]
  · obtain rfl : k = 7 := by omega
    simp

theorem getElem_ofNat_toNat (b : Bool) (k : Nat) (hk : k < 8) :
    (BitVec.ofNat 8 b.toNat)[k] = (decide (k = 0) && b) := by
  cases b <;> simp [BitVec.getElem_one]

theorem shiftLeft1_eq_or (v : Byte) (low : Bool) : shiftLeft1 v low = (v <<< 1) ||| BitVec.ofNat 8 low.toNat := by
  ext k hk
  rw [getElem_shiftLeft1, BitVec.getElem_or, BitVec.getElem_shiftLeft, getElem_ofNat_toNat]
  cases k <;> simp

theorem shiftRight1_eq_or (high : Bool) (v : Byte) :
    shiftRight1 high v = (v >>> 1) ||| (BitVec.ofNat 8 high.toNat <<< 7) := by
  ext k hk
  rw [getElem_shiftRight1]
  by_cases h : k < 7
  · simp [h, Nat.add_comm, BitVec.getLsbD_eq_getElem (show k + 1 < 8 by omega)]
  · obtain rfl : k = 7 := by omega
    simp [getElem_ofNat_toNat]

theorem shiftLeft1_getLsbD_seven (v : Byte) : shiftLeft1 v (v.getLsbD 7) = v.rotateLeft 1 := by
  ext k hk
  rw [getElem_shiftLeft1, BitVec.getElem_rotateLeft]
  cases k <;> simp

theorem shiftRight1_getLsbD_zero (v : Byte) : shiftRight1 (v.getLsbD 0) v = v.rotateRight 1 := by
  ext k hk
  rw [getElem_shiftRight1, BitVec.getElem_rotateRight]
  by_cases h : k < 7
  · simp [h, Nat.add_comm]
  · obtain rfl : k = 7 := by omega
    simp

theorem shiftRight1_getLsbD_seven (v : Byte) : shiftRight1 (v.getLsbD 7) v = v.sshiftRight 1 := by
  ext k hk
  rw [getElem_shiftRight1, BitVec.getElem_sshiftRight]
  by_cases h : k < 7
  · simp [h, Nat.add_comm]
  · obtain rfl : k = 7 := by omega
    simp [BitVec.msb_eq_getLsbD_last]

theorem rlc8_eq (v : Byte) : rlc8 v = (v.rotateLeft 1, v.getLsbD 7) :=
  congrArg (·, _) (shiftLeft1_getLsbD_seven v)

theorem rl8_eq (c : Bool) (v : Byte) : rl8 c v = ((v <<< 1) ||| BitVec.ofNat 8 c.toNat, v.getLsbD 7) :=
  congrArg (·, _) (shiftLeft1_eq_or v c)

theorem rrc8_eq (v : Byte) : rrc8 v = (v.rotateRight 1, v.getLsbD 0) :=
  congrArg (·, _) (shiftRight1_getLsbD_zero v)

theorem rr8_eq (c : Bool) (v : Byte) : rr8 c v = ((v >>> 1) ||| (BitVec.ofNat 8 c.toNat <<< 7), v.getLsbD 0) :=
  congrArg (·, _) (shiftRight1_eq_or c v)

theorem sla8_eq (v : Byte) : sla8 v = (v <<< 1, v.getLsbD 7) :=
  congrArg (·, _) ((shiftLeft1_eq_or v false).trans BitVec.or_zero)

theorem sra8_eq (v : Byte) : sra8 v = (v.sshiftRight 1, v.getLsbD 0) :=
  congrArg (·, _) (shiftRight1_getLsbD_seven v)

theorem srl8_eq (v : Byte) : srl8 v = (v >>> 1, v.getLsbD 0) :=
  congrArg (·, _) ((shiftRight1_eq_or false v).trans BitVec.or_zero)

/-! ### Rotates of the accumulator -/

/-- The form puts its operand, the result and the bit moved out, in `A` and `C`, with the flags of R380, and leaves
all else. -/
def RotatesA (s : State) (form : Form (Byte × Bool)) : Prop :=
  ∃ t, form.completes s t ∧ t.cpu.a = form.operand.1 ∧
    flagsAre t s.cpu.f.s s.cpu.f.z false s.cpu.f.pv false form.operand.2 ∧ RegsKept [.a] s t ∧ MemoryKept s t

theorem rotatesA_rotateA {r : Byte × Bool} (hr : f s.cpu.a = r) (h : exec i s = done cost (rotateA f s)) :
    RotatesA s { instr := i, cost := cost, operand := r } := by
  subst hr
  obtain ⟨hcompletes, hregs, hmem⟩ :=
    operandTaken_direct.completes (form := { instr := i, cost := cost, operand := f s.cpu.a }) (g := .a) h
  exact ⟨_, hcompletes, rfl, ⟨rfl, rfl, rfl, rfl, rfl, rfl⟩, hregs, hmem⟩

/-- Settles O33: each form is one rotate of `A`, by one bit or through `C`. -/
theorem accumulatorRotates : Obligations.AccumulatorRotates := by
  intro s a f bit forms
  change ∀ form ∈ forms, RotatesA s form
  simp only [forms, List.forall_mem_cons]
  exact ⟨rotatesA_rotateA (rlc8_eq a) rfl, rotatesA_rotateA (rl8_eq f.c a) rfl, rotatesA_rotateA (rrc8_eq a) rfl,
    rotatesA_rotateA (rr8_eq f.c a) rfl, List.forall_mem_nil _⟩

/-! ### Rotates and shifts of a register or a byte of memory -/

/-- The flags of R381 for a result and the bit moved out. -/
def FlagsFromShift (r : Byte × Bool) (t : State) : Prop :=
  flagsAre t (decide (r.1.toInt < 0)) (decide (r.1 = 0#8)) false (evenOnes r.1) false r.2

theorem flagsFromShift_shiftOp (f : Byte → Byte × Bool) (v : Byte) (t : State) :
    FlagsFromShift (f v) (setFlags (shiftOp f v).2 t) :=
  flagsAre_setFlags (congrArg FlagVal.put BitVec.msb_eq_toInt) rfl rfl (congrArg FlagVal.put (parity8_eq_evenOnes _))
    rfl rfl t

/-- The form replaces register `dst` by the result of `f`, with the flags of R381, and leaves all else. -/
def ShiftsRegister (s : State) (dst : Reg8) (f : Byte → Byte × Bool) (form : Form Unit) : Prop :=
  ∃ t, form.completes s t ∧ r8 t dst = (f (r8 s dst)).1 ∧ FlagsFromShift (f (r8 s dst)) t ∧
    RegsKept [regOf8 dst] s t ∧ MemoryKept s t

theorem shiftsRegister_modifyReg {dst : Reg8} (h : exec i s = done cost (modifyReg dst (shiftOp f) s)) :
    ShiftsRegister s dst f { instr := i, cost := cost, operand := () } := by
  obtain ⟨hcompletes, hregs, hmem⟩ :=
    operandTaken_direct.completes (form := { instr := i, cost := cost, operand := () }) h
  exact ⟨_, hcompletes, r8_setR8 s dst _, flagsFromShift_shiftOp f _ _, hregs, hmem⟩

/-- The form replaces the byte at its address by the result of `f`, with the flags of R381, and leaves all else. -/
def ShiftsByteAt (s : State) (f : Byte → Byte × Bool) (form : Form Word) : Prop :=
  ∃ t, form.completes s t ∧ Stored [(form.operand, (f (peek s form.operand)).1)] s t ∧
    FlagsFromShift (f (peek s form.operand)) t ∧ RegsKept [] s t

theorem shiftsByteAt_modifyAt (hw : Memory.wf s.cfg s.mem = true) {x : Word}
    (h : exec i s = done cost (modifyAt x (shiftOp f) s)) :
    ShiftsByteAt s f { instr := i, cost := cost, operand := x, accesses := [(.read, x), (.write, x)] } := by
  obtain ⟨hstored, hregs, haccesses, hothers⟩ := modifyAt_spec hw x (shiftOp f)
  exact ⟨_, Form.completes_of_done h haccesses hothers, (stored_setTIns ..).mpr hstored,
    flagsFromShift_shiftOp f _ _, hregs⟩

/-- The row's four instructions are its function on a register, and on the bytes at `HL`, `IX+d` and `IY+d`. -/
def ShiftsInAllForms (s : State) (dst : Reg8) (disp : Byte)
    (row : (Instr × Instr × Instr × Instr) × (Byte → Byte × Bool)) : Prop :=
  let onByteAt := fun (i : Instr) (cost : Nat) (x : Word) =>
    ({ instr := i, cost := cost, operand := x, accesses := [(.read, x), (.write, x)] } : Form Word)
  ShiftsRegister s dst row.2 { instr := row.1.1, cost := 8, operand := () } ∧
    ∀ form ∈ [onByteAt row.1.2.1 15 (hl s), onByteAt row.1.2.2.1 23 (eaIX s disp),
      onByteAt row.1.2.2.2 23 (eaIY s disp)], ShiftsByteAt s row.2 form

theorem shiftsInAllForms_shiftOp (hw : Memory.wf s.cfg s.mem = true) {dst : Reg8} {disp : Byte}
    {onReg atHL atIX atIY : Instr} {g : Byte → Byte × Bool} (hg : ∀ v, f v = g v)
    (hreg : exec onReg s = done 8 (modifyReg dst (shiftOp f) s))
    (hhl : exec atHL s = done 15 (modifyAt (hl s) (shiftOp f) s))
    (hix : exec atIX s = done 23 (modifyAt (eaIX s disp) (shiftOp f) s))
    (hiy : exec atIY s = done 23 (modifyAt (eaIY s disp) (shiftOp f) s)) :
    ShiftsInAllForms s dst disp ((onReg, atHL, atIX, atIY), g) := by
  obtain rfl : f = g := funext hg
  refine ⟨shiftsRegister_modifyReg hreg, ?_⟩
  simp only [List.forall_mem_cons]
  exact ⟨shiftsByteAt_modifyAt hw hhl, shiftsByteAt_modifyAt hw hix, shiftsByteAt_modifyAt hw hiy,
    List.forall_mem_nil _⟩

/-- Settles O34: each row is one function of the byte, in its register form and its three memory forms. -/
theorem rotatesAndShifts : Obligations.RotatesAndShifts := by
  intro s dst disp hw bit c ix iy rmw
  change ∀ row ∈ _, ShiftsInAllForms s dst disp row
  simp only [List.forall_mem_cons]
  exact ⟨shiftsInAllForms_shiftOp hw rlc8_eq rfl rfl rfl rfl, shiftsInAllForms_shiftOp hw (rl8_eq c) rfl rfl rfl rfl,
    shiftsInAllForms_shiftOp hw rrc8_eq rfl rfl rfl rfl, shiftsInAllForms_shiftOp hw (rr8_eq c) rfl rfl rfl rfl,
    shiftsInAllForms_shiftOp hw sla8_eq rfl rfl rfl rfl, shiftsInAllForms_shiftOp hw sra8_eq rfl rfl rfl rfl,
    shiftsInAllForms_shiftOp hw srl8_eq rfl rfl rfl rfl, List.forall_mem_nil _⟩

/-! ### Rotates of decimal digits -/

/-- Two low digits make one byte (R414, R415). -/
theorem nibbles_eq (hi lo : Byte) : nibbles hi lo = BitVec.ofNat 8 (hi.toNat % 16 * 16 + lo.toNat % 16) := by
  have hdigit (v : Byte) : (v.extractLsb' 0 4).toNat = v.toNat % 16 := BitVec.extractLsb'_toNat 0 4 v
  have happend : (nibbles hi lo).toNat = (hi.extractLsb' 0 4).toNat <<< 4 ||| (lo.extractLsb' 0 4).toNat :=
    BitVec.toNat_append _ _
  rw [← Nat.shiftLeft_add_eq_or_of_lt (lo.extractLsb' 0 4).isLt, Nat.shiftLeft_eq, hdigit, hdigit] at happend
  rw [BitVec.toNat_eq, happend, BitVec.toNat_ofNat]
  omega

/-- The high digit as a number, as `A` and the byte give it to `nibbles` (R414, R415). -/
theorem toNat_ushiftRight_four_mod (v : Byte) : (v >>> 4).toNat % 16 = v.toNat / 16 := by
  rw [BitVec.toNat_ushiftRight, Nat.shiftRight_eq_div_pow]
  omega

/-- The row's instruction puts its two bytes in `A` and at `HL`, with the flags of R414, and leaves all else. -/
def RotatesDigits (s : State) (row : Instr × Byte × Byte) : Prop :=
  let form : Form Unit :=
    { instr := row.1, cost := 18, operand := (), accesses := [(.read, hl s), (.write, hl s)] }
  ∃ t, form.completes s t ∧ t.cpu.a = row.2.1 ∧ Stored [(hl s, row.2.2)] s t ∧
    flagsAre t (decide (row.2.1.toInt < 0)) (decide (row.2.1 = 0#8)) false (evenOnes row.2.1) false s.cpu.f.c ∧
    RegsKept [.a] s t

/-- All that reading the byte at `x` and then writing `v` there does. -/
theorem write8_read8_spec (hw : Memory.wf s.cfg s.mem = true) (x : Word) (v : Byte) : let u := write8 x v (read8 x s).2
    u.cpu = s.cpu ∧ Stored [(x, v)] s u ∧ Accessed [(.read, x), (.write, x)] s u ∧ OthersKept s u :=
  ⟨rfl, ((Stored.refl s).congr (u := (read8 x s).2) rfl rfl rfl).write8 rfl rfl hw x v, (accessed_read8 x).write x v,
    by simp⟩

theorem rotatesDigits_of_done (hw : Memory.wf s.cfg s.mem = true) {a v : Byte}
    (h : exec i s = done 18 (setFlags (byteFlags a (parity8 a)) (setA a (write8 (hl s) v (read8 (hl s) s).2)))) :
    RotatesDigits s (i, a, v) := by
  obtain ⟨hcpu, hstored, haccesses, hothers⟩ := write8_read8_spec hw (hl s) v
  generalize write8 (hl s) v (read8 (hl s) s).2 = u at h hcpu hstored haccesses hothers
  have hflags := flagsAre_byteFlags a (parity8 a) (setA a u)
  rw [setA_cpu_f, hcpu, parity8_eq_evenOnes] at hflags
  rw [parity8_eq_evenOnes] at h
  exact ⟨_, Form.completes_of_done h haccesses hothers, rfl, by simpa, hflags,
    regsKept_setR8 (g := .a) (regsKept_of_cpu hcpu _) (List.mem_singleton_self _) a⟩

/-- Settles O35: each form stores two of the three digits at `HL` and puts the third in the low half of `A`. -/
theorem digitRotates : Obligations.DigitRotates := by
  intro s hw a v byte
  have hrld := rotatesDigits_of_done (i := .rld) hw rfl
  have hrrd := rotatesDigits_of_done (i := .rrd) hw rfl
  simp only [nibbles_eq, toNat_ushiftRight_four_mod] at hrld hrrd
  change ∀ row ∈ _, RotatesDigits s row
  simp only [List.forall_mem_cons]
  exact ⟨hrld, hrrd, List.forall_mem_nil _⟩

end Sys2Proof.Machine
end

section
/-! PROOFS. Bit test, set and reset (47_bit.md R420 to R431). -/

namespace Sys2Proof.Machine

variable {s t u : State} {i : Instr} {cost b : Nat}

/-- `w` is `v` with bit `b` put to `on`. -/
def BitPut (b : Nat) (v w : Byte) (on : Bool) : Prop :=
  w.getLsbD b = on ∧ ∀ k, k < 8 → k ≠ b → w.getLsbD k = v.getLsbD k

/-- The byte of `SET` and `RES` (R424, R428). -/
def putBit (on : Bool) (b : Nat) (v : Byte) : Byte := if on then withBit v b else withoutBit v b

theorem bitPut_putBit (hb : b < 8) (on : Bool) (v : Byte) : BitPut b v (putBit on b v) on := by
  have hmask (k : Nat) (hk : k < 8) : (1#8 <<< b).getLsbD k = decide (k = b) := by
    simp only [BitVec.getLsbD_shiftLeft, hk, BitVec.getLsbD_one, decide_true, Bool.true_and]
    by_cases hkb : k = b <;> simp [hkb]; omega
  have hput (k : Nat) (hk : k < 8) : (putBit on b v).getLsbD k = if k = b then on else v.getLsbD k := by
    cases on <;>
      simp only [putBit, withBit, withoutBit, BitVec.getLsbD_or, BitVec.getLsbD_and, BitVec.getLsbD_not, hmask k hk,
        hk, if_true, if_false, Bool.false_eq_true] <;>
      by_cases hkb : k = b <;> simp [hkb]
  exact ⟨by simp [hput b hb], fun k hk hkb => by simp [hput k hk, hkb]⟩

/-- The form tests bit `b` of its operand, and leaves all but the flags. -/
def TestsBit (s : State) (b : Nat) (form : Form Byte) : Prop :=
  ∃ t, form.completes s t ∧ t.cpu.f.z = !form.operand.getLsbD b ∧ t.cpu.f.h = true ∧ t.cpu.f.n = false ∧
    t.cpu.f.c = s.cpu.f.c ∧ RegsKept [] s t ∧ MemoryKept s t

theorem OperandTaken.testsBit {acc : List (AccessKind × Word)} {v : Byte} (hu : OperandTaken acc s u)
    (h : exec i s = done cost (setFlags (bitFlags v b) u)) :
    TestsBit s b { instr := i, cost := cost, operand := v, accesses := acc } := by
  obtain ⟨hcpu, hmem, haccesses, hothers⟩ := hu
  exact ⟨_, Form.completes_of_done h (by simpa) (by simpa), rfl, rfl, rfl, (congrArg (fun c : Cpu => c.f.c) hcpu :),
    regsKept_of_cpu (t := u) hcpu [], by simpa⟩

/-- The form puts bit `b` of register `reg`, and leaves all else. -/
def PutsBitOf (s : State) (b : Nat) (reg : Reg8) (form : Form Bool) : Prop :=
  ∃ t, form.completes s t ∧ BitPut b (r8 s reg) (r8 t reg) form.operand ∧
    FlagsKept s t ∧ RegsKept [regOf8 reg] s t ∧ MemoryKept s t

theorem putsBitOf_setR8 {reg : Reg8} {on : Bool} (hb : b < 8)
    (h : exec i s = done cost (setR8 reg (putBit on b (r8 s reg)) s)) :
    PutsBitOf s b reg { instr := i, cost := cost, operand := on } := by
  refine ⟨_, Form.completes_of_done h (by simp) (by simp), ?_, by simp,
    regsKept_setR8 (regsKept_self s _) (List.mem_singleton_self _) _, by simp⟩
  have hresult : r8 (setTIns cost (setR8 reg (putBit on b (r8 s reg)) s)) reg = putBit on b (r8 s reg) :=
    r8_setR8 s reg _
  rw [hresult]
  exact bitPut_putBit hb on _

/-- The form puts bit `b` of the byte at its address, and leaves all else. -/
def PutsBitAt (s : State) (b : Nat) (form : Form (Bool × Word)) : Prop :=
  ∃ t v, form.completes s t ∧ BitPut b (peek s form.operand.2) v form.operand.1 ∧
    Stored [(form.operand.2, v)] s t ∧ FlagsKept s t ∧ RegsKept [] s t

theorem putsBitAt_rewriteAt (hw : Memory.wf s.cfg s.mem = true) {on : Bool} {x : Word} (hb : b < 8)
    (h : exec i s = done cost (rewriteAt x (putBit on b) s)) :
    PutsBitAt s b { instr := i, cost := cost, operand := (on, x), accesses := [(.read, x), (.write, x)] } := by
  obtain ⟨hcpu, hstored, haccesses, hothers⟩ := write8_read8_spec hw x (putBit on b (peek s x))
  exact ⟨_, _, Form.completes_of_done h haccesses hothers, bitPut_putBit hb on _, (stored_setTIns ..).mpr hstored,
    congrArg Cpu.f hcpu, regsKept_of_cpu hcpu []⟩

/-- Settles O36: four forms test a bit of their operand, two put one of a register, and six put one of a byte of
memory. -/
theorem bitTestSetReset : Obligations.BitTestSetReset := by
  intro s b reg disp hb hw ix iy rmw put
  refine ⟨?_, ?_, ?_⟩
  · change ∀ form ∈ _, TestsBit s b form
    simp only [List.forall_mem_cons]
    exact ⟨operandTaken_direct.testsBit rfl, (operandTaken_read _).testsBit rfl, (operandTaken_read _).testsBit rfl,
      (operandTaken_read _).testsBit rfl, List.forall_mem_nil _⟩
  · change ∀ form ∈ _, PutsBitOf s b reg form
    simp only [List.forall_mem_cons]
    exact ⟨putsBitOf_setR8 hb rfl, putsBitOf_setR8 hb rfl, List.forall_mem_nil _⟩
  · change ∀ form ∈ _, PutsBitAt s b form
    simp only [List.forall_mem_cons]
    exact ⟨putsBitAt_rewriteAt hw hb rfl, putsBitAt_rewriteAt hw hb rfl, putsBitAt_rewriteAt hw hb rfl,
      putsBitAt_rewriteAt hw hb rfl, putsBitAt_rewriteAt hw hb rfl, putsBitAt_rewriteAt hw hb rfl,
      List.forall_mem_nil _⟩

end Sys2Proof.Machine
end

section
/-! PROOFS. Jumps, calls and returns (48_jump_call.md R440 to R457). -/

namespace Sys2Proof.Machine

variable {s t u : State} {i : Instr} {cost : Nat}

/-! ### Jumps -/

/-- The form sets `PC` to its operand, and leaves all else. -/
def JumpsTo (s : State) (form : Form Word) : Prop :=
  ∃ t, form.completes s t ∧ t.cpu.pc = form.operand ∧ FlagsKept s t ∧ RegsKept [.pc] s t ∧ MemoryKept s t

theorem jumpsTo_setPC {target : Word} (h : exec i s = done cost (setPC target s)) :
    JumpsTo s { instr := i, cost := cost, operand := target } :=
  ⟨_, Form.completes_of_done h (by simp) (by simp), rfl, by simp,
    regsKept_setPC (regsKept_self s [.pc]) (by simp) (by simp) target, by simp⟩

/-- A conditional relative jump that is not taken leaves `PC` (R443). -/
theorem jumpsTo_relJumpIf {taken : Bool} {e : Byte} (h : exec i s = relJumpIf taken e s) :
    JumpsTo s { instr := i, cost := if taken then 12 else 7,
                operand := if taken then relTarget s e else s.cpu.pc } := by
  cases taken <;> exact jumpsTo_setPC h

theorem jumpsTo_relJumpIf_not {untaken : Bool} {e : Byte} (h : exec i s = relJumpIf (!untaken) e s) :
    JumpsTo s
      { instr := i, cost := if untaken then 7 else 12, operand := if untaken then s.cpu.pc else relTarget s e } := by
  cases untaken <;> exact jumpsTo_setPC h

theorem jumpsTo_jpCCNN (cc : Cond) (nn : Word) :
    JumpsTo s { instr := .jpCCNN cc nn, cost := 10, operand := if condHolds s cc then nn else s.cpu.pc } := by
  refine jumpsTo_setPC (congrArg (done 10) ?_)
  split <;> rfl

/-- The end of `DJNZ`, for `B` after its decrement (R450). -/
theorem djnz_eq_done (e : Byte) (s : State) : let left := s.cpu.b - 1#8
    exec (.djnz e) s = done (if left = 0#8 then 8 else 13)
      (setPC (if left = 0#8 then s.cpu.pc else relTarget s e) (setR8 .b left s)) := by
  change (if (s.cpu.b - 1#8 != 0#8) = true then _ else _) = _
  by_cases hleft : s.cpu.b - 1#8 = 0#8 <;> simp [hleft] <;> rfl

/-- Settles O37: every form but `DJNZ` sets `PC` alone, where its condition fails to the value it has. -/
theorem jumps : Obligations.Jumps := by
  intro s nn e f next rel conditions forms
  constructor
  · change ∀ form ∈ _ ++ _, JumpsTo s form
    simp only [List.forall_mem_append, List.forall_mem_cons, conditions, List.map_cons, List.map_nil]
    exact ⟨⟨jumpsTo_setPC rfl, jumpsTo_setPC rfl, jumpsTo_relJumpIf rfl, jumpsTo_relJumpIf_not rfl,
      jumpsTo_relJumpIf rfl, jumpsTo_relJumpIf_not rfl, jumpsTo_setPC rfl, jumpsTo_setPC rfl, jumpsTo_setPC rfl,
      List.forall_mem_nil _⟩,
      jumpsTo_jpCCNN .nz nn, jumpsTo_jpCCNN .z nn, jumpsTo_jpCCNN .nc nn, jumpsTo_jpCCNN .c nn, jumpsTo_jpCCNN .po nn,
      jumpsTo_jpCCNN .pe nn, jumpsTo_jpCCNN .p nn, jumpsTo_jpCCNN .m nn, List.forall_mem_nil _⟩
  · have hregs : RegsKept [.b, .pc] s (setR8 .b (s.cpu.b - 1#8) s) := regsKept_setR8 (regsKept_self s _) (by decide) _
    exact ⟨_, Form.completes_of_done (djnz_eq_done e s) (by simp) (by simp), rfl, rfl, by simp,
      regsKept_setPC hregs (by simp) (by decide) _, by simp⟩

/-! ### Calls -/

theorem regsKept_of_cpu_pc_sp {pc sp : Word} (h : t.cpu = { s.cpu with pc := pc, sp := sp }) :
    RegsKept [.pc, .sp] s t := by
  intro reg hreg
  cases reg with
  | pc | sp => exact absurd (by decide) hreg
  | _ => simp [Reg.kept, h]

/-- The form pushes `PC` and goes to its operand, and leaves all else. -/
def CallsTo (s : State) (form : Form Word) : Prop :=
  ∃ t, form.completes s t ∧ t.cpu.pc = form.operand ∧ t.cpu.sp = s.cpu.sp - 2#16 ∧
    Stored [(s.cpu.sp - 1#16, hiByte s.cpu.pc), (s.cpu.sp - 2#16, loByte s.cpu.pc)] s t ∧
    FlagsKept s t ∧ RegsKept [.pc, .sp] s t

theorem callsTo_callTo (hw : Memory.wf s.cfg s.mem = true) {target : Word}
    (h : exec i s = done cost (callTo target s)) :
    CallsTo s { instr := i, cost := cost, operand := target,
                accesses := writes [s.cpu.sp - 1#16, s.cpu.sp - 2#16] } := by
  obtain ⟨hcpu, hstored, haccesses, hothers⟩ := pushWord_spec hw s.cpu.pc
  have hcall : (callTo target s).cpu = { s.cpu with pc := target, sp := s.cpu.sp - 2#16 } := by
    rw [callTo, setPC, hcpu]
  exact ⟨_, Form.completes_of_done h haccesses hothers, rfl, congrArg Cpu.sp hcall,
    (stored_setTIns ..).mpr ((stored_setPC ..).mpr hstored), (congrArg Cpu.f hcall :), regsKept_of_cpu_pc_sp hcall⟩

/-- An instruction that does nothing leaves all. -/
theorem completes_unchanged (h : exec i s = done cost s) :
    ({ instr := i, cost := cost, operand := () } : Form Unit).completes s (setTIns cost s) ∧
      FlagsKept s (setTIns cost s) ∧ RegsKept [] s (setTIns cost s) ∧ MemoryKept s (setTIns cost s) :=
  completes_cpu (cpu := s.cpu) h rfl (regsKept_self s [])

/-- A statement about one form that is listed where a condition holds. -/
theorem forall_mem_ite_singleton {α : Type} {P : α → Prop} {c : Bool} {a : α} (h : c = true → P a) :
    ∀ x ∈ (if c then [a] else []), P x := by
  cases c
  · exact List.forall_mem_nil _
  · exact List.forall_mem_singleton.mpr (h rfl)

/-- Settles O38: the three forms are one call; where its condition fails `CALL cc` does nothing. -/
theorem calls : Obligations.Calls := by
  intro s nn target cc hw bus
  constructor
  · change ∀ form ∈ _ ++ _, CallsTo s form
    simp only [List.forall_mem_append, List.forall_mem_cons]
    exact ⟨⟨callsTo_callTo hw rfl, callsTo_callTo hw rfl, List.forall_mem_nil _⟩,
      forall_mem_ite_singleton fun hcc => callsTo_callTo hw (if_pos hcc)⟩
  · exact fun hcc => ⟨_, completes_unchanged (if_neg (by simp [hcc]))⟩

/-! ### Returns -/

/-- The form pops `PC`, puts its operand in `IFF1`, and leaves all else. -/
def Returns (s : State) (form : Form Bool) : Prop :=
  ∃ t, form.completes s t ∧ t.cpu.pc = peek s (s.cpu.sp + 1#16) ++ peek s s.cpu.sp ∧
    t.cpu.sp = s.cpu.sp + 2#16 ∧ t.cpu.iff1 = form.operand ∧
    FlagsKept s t ∧ RegsKept [.pc, .sp, .iff1] s t ∧ MemoryKept s t

/-- A pop of `PC` after which `IFF1` holds `iff`. -/
theorem returns_popWord {iff1 : Bool}
    (h : exec i s = done cost { (popWord s).2 with
      cpu := { (popWord s).2.cpu with pc := (popWord s).1, iff1 := iff1 } }) :
    Returns s { instr := i, cost := cost, operand := iff1, accesses := reads [s.cpu.sp, s.cpu.sp + 1#16] } := by
  obtain ⟨htarget, hcpu, hmem, haccesses, hothers⟩ := popWord_spec (s := s)
  rw [htarget, hcpu] at h
  refine ⟨_, Form.completes_of_done h haccesses hothers, rfl, rfl, rfl, rfl, fun reg hreg => ?_, hmem⟩
  cases reg with
  | pc | sp | iff1 => exact absurd (by decide) hreg
  | _ => rfl

/-- Settles O39: each form is one pop of `PC`, and `RETN` takes `IFF2` for `IFF1`; where its condition fails `RET cc`
does nothing. -/
theorem returns : Obligations.Returns := by
  intro s cc bus
  constructor
  · change ∀ form ∈ _ ++ _, Returns s form
    simp only [List.forall_mem_append, List.forall_mem_cons]
    exact ⟨⟨returns_popWord rfl, returns_popWord rfl, returns_popWord rfl, List.forall_mem_nil _⟩,
      forall_mem_ite_singleton fun hcc => returns_popWord (if_pos hcc)⟩
  · exact fun hcc => ⟨_, completes_unchanged (if_neg (by simp [hcc]))⟩

end Sys2Proof.Machine
end

section
/-! PROOFS. Input and output (49_io.md R470 to R481). -/

namespace Sys2Proof.Machine

variable {s t w : State} {i : Instr} {cost : Nat}

theorem RegsKept.of_cpu {written : List Reg} (h : RegsKept written s t) (hcpu : w.cpu = t.cpu) :
    RegsKept written s w := by
  intro reg hreg
  have hkept := h reg hreg
  cases reg <;> simpa [Reg.kept, hcpu] using hkept

/-! ### What a port access leaves of the CPU and memory -/

theorem PortsOnly.portEffect (h : PortsOnly s w) : PortEffect w s w := by
  obtain ⟨-, -, -, -, -, -, hothers⟩ := h
  exact ⟨rfl, rfl, rfl, rfl, rfl, hothers⟩

theorem PortsOnly.accessed (h : PortsOnly s w) : Accessed [] s w := by
  obtain ⟨-, -, hwatch, hactivity, -⟩ := h
  exact ⟨hwatch, hactivity⟩

theorem PortsOnly.cell (h : PortsOnly s w) (key : Nat) : cell w key = cell s key := by
  have hcfg := h.cfg
  obtain ⟨-, hmem, -⟩ := h
  exact cell_congr hcfg hmem key

theorem PortsOnly.peek (h : PortsOnly s w) (hslots : w.slots = s.slots) (x : Word) : peek w x = peek s x := by
  have hcfg := h.cfg
  obtain ⟨-, hmem, -⟩ := h
  exact peek_congr hcfg hslots hmem x

theorem portRead_memoryKept (port : Word) (s : State) : MemoryKept s (portRead port s).2 :=
  have hports := portRead_ports port s
  ⟨hports.peek (portRead_rest port s).1, hports.cell⟩

/-! ### Single inputs and outputs -/

/-- Settles O40: each form is one port access, then the register written, and for `IN r,(C)` the flags. -/
theorem inputs : Obligations.Inputs := by
  intro s n dst
  have hports (port : Word) := portRead_ports port s
  constructor
  · have hcpu := (hports (portAN s n)).1
    exact ⟨_, rfl, rfl, rfl, (hports _).portEffect, (hports _).accessed, (congrArg Cpu.f hcpu :),
      regsKept_setR8 (g := .a) (regsKept_of_cpu hcpu _) (List.mem_singleton_self _) _, portRead_memoryKept _ s⟩
  · have hcpu := (hports (bc s)).1
    have hregs := regsKept_setR8 (g := dst) (regsKept_of_cpu hcpu _) (List.mem_singleton_self _) (portRead (bc s) s).1
    have hflags := flagsAre_byteFlags (portRead (bc s) s).1 (parity8 (portRead (bc s) s).1)
      (setR8 dst (portRead (bc s) s).1 (portRead (bc s) s).2)
    rw [setR8_cpu_f, hcpu, parity8_eq_evenOnes] at hflags
    have hexec : exec (.inRC dst) s = done 12
        (setFlags (byteFlags (portRead (bc s) s).1 (evenOnes (portRead (bc s) s).1))
          (setR8 dst (portRead (bc s) s).1 (portRead (bc s) s).2)) := by
      rw [← parity8_eq_evenOnes]
      rfl
    refine ⟨_, hexec, rfl, r8_setR8 _ dst _, ?_, by simpa using (hports (bc s)).accessed, hflags, hregs,
      by simpa using portRead_memoryKept (bc s) s⟩
    have heffect := (hports (bc s)).portEffect
    cases dst <;> exact heffect

/-- The instruction writes a byte to a port, and leaves all else. -/
theorem output_of_done {port : Word} {v : Byte} (h : exec i s = done cost (portWrite port v s)) :
    ∃ t, exec i s = .next t ∧ t.tIns = cost ∧ PortEffect (portWrite port v s) s t ∧
      Accessed [] s t ∧ FlagsKept s t ∧ RegsKept [] s t ∧ (∀ key, cell t key = cell s key) ∧
      (t.slots = s.slots → ∀ a, peek t a = peek s a) := by
  have hports := portWrite_ports port v s
  have hcpu := hports.1
  exact ⟨_, h, rfl, hports.portEffect, hports.accessed, congrArg Cpu.f hcpu,
    regsKept_of_cpu (t := portWrite port v s) hcpu [], hports.cell, hports.peek⟩

/-- Settles O41: each form is one port write. -/
theorem outputs : Obligations.Outputs := by
  intro s n src
  simp only [List.forall_mem_cons]
  exact ⟨output_of_done rfl, output_of_done rfl, List.forall_mem_nil _⟩

/-! ### Block inputs -/

theorem bne_eq_decide_ne_byte (v w : Byte) : (v != w) = decide (v ≠ w) := by simp [bne, beq_eq_decide]

theorem blockInput_eq (step : Word) (s : State) : let p := portRead (bc s) s
    blockInput step s = setFlags (blockIoFlags (s.cpu.b - 1#8))
      (setHL (hl s + step) (setB (s.cpu.b - 1#8) (write8 (hl s) p.1 p.2))) := by
  have hcpu := (portRead_ports (bc s) s).1
  simp [blockInput, hl, hcpu]

/-- All that one byte of a block input does. -/
theorem blockInput_spec (hw : Memory.wf s.cfg s.mem = true) (step : Word) : let p := portRead (bc s) s
    let u := blockInput step s
    PortEffect p.2 s u ∧ u.cpu.b = s.cpu.b - 1#8 ∧ hl u = hl s + step ∧ u.cpu.f.z = decide (s.cpu.b - 1#8 = 0#8) ∧
      u.cpu.f.n = true ∧ u.cpu.f.c = s.cpu.f.c ∧ Accessed (writes [hl s]) s u ∧ Stored [(hl s, p.1)] s u ∧
      RegsKept [.b, .h, .l] s u := by
  have hports := portRead_ports (bc s) s
  have hslots := (portRead_rest (bc s) s).1
  rw [blockInput_eq]
  generalize portRead (bc s) s = p at hports hslots ⊢
  have hcfg := hports.cfg
  have heffect := hports.portEffect
  have haccesses := hports.accessed.write (hl s) p.1
  obtain ⟨hcpu, hmem, -⟩ := hports
  have hstored := ((Stored.refl s).congr hcfg hslots hmem).write8 hcfg hslots (by rw [hcfg, hmem]; exact hw) (hl s) p.1
  have hregs : RegsKept [.b, .h, .l] s (write8 (hl s) p.1 p.2) := regsKept_of_cpu hcpu _
  have hb := regsKept_setR8 (g := .b) hregs (by decide) (s.cpu.b - 1#8)
  have hhl := regsKept_hostSet16 (r := .hl) hb (by decide) (by decide) (hl s + step)
  refine ⟨heffect, rfl, by simp [hl], ?_, rfl, ?_, haccesses, by simpa using hstored, hhl⟩
  · simp [blockIoFlags, beq_eq_decide]
  · simp [blockIoFlags, hcpu]

/-- The row's instruction inputs one byte, and says whether it goes on. -/
def InputsByte (s : State) (row : Instr × Word × Bool) : Prop :=
  let p := portRead (s.cpu.b ++ s.cpu.c) s
  let left := s.cpu.b - 1#8
  let again := row.2.2 && decide (left ≠ 0#8)
  ∃ t, exec row.1 s = .next t ∧ t.tIns = (if again then 21 else 16) ∧ PortEffect p.2 s t ∧
    t.cpu.b = left ∧ hl t = hl s + row.2.1 ∧ t.cpu.pc = (if again then s.pc0 else s.cpu.pc) ∧
    t.cpu.f.z = decide (left = 0#8) ∧ t.cpu.f.n = true ∧ t.cpu.f.c = s.cpu.f.c ∧
    Accessed (writes [hl s]) s t ∧ Stored [(hl s, p.1)] s t ∧ RegsKept [.b, .h, .l, .pc] s t

theorem PortEffect.pc0 (h : PortEffect w s t) : t.pc0 = s.pc0 := by
  obtain ⟨-, -, -, -, -, hothers⟩ := h
  exact (congrArg State.pc0 hothers :)

theorem inputsByte_blockInput (hw : Memory.wf s.cfg s.mem = true) {step : Word} {repeats : Bool}
    (h : exec i s = repeatWhile (repeats && (blockInput step s).cpu.b != 0#8) (blockInput step s)) :
    InputsByte s (i, step, repeats) := by
  obtain ⟨heffect, hb, hhl, hz, hn, hc, haccesses, hstored, hregs⟩ := blockInput_spec hw step
  rw [hb, bne_eq_decide_ne_byte, repeatWhile_eq_done, heffect.pc0, hregs .pc (by decide)] at h
  exact ⟨_, h, rfl, heffect, hb, hhl, rfl, hz, hn, hc, haccesses, hstored,
    regsKept_setPC hregs (by decide) (by decide) _⟩

/-- Settles O42: each form inputs one byte, and a repeating one goes on while the new `B` is not 0. -/
theorem blockInputs : Obligations.BlockInputs := by
  intro s hw
  change ∀ row ∈ _, InputsByte s row
  simp only [List.forall_mem_cons]
  exact ⟨inputsByte_blockInput hw rfl, inputsByte_blockInput hw rfl, inputsByte_blockInput hw rfl,
    inputsByte_blockInput hw rfl, List.forall_mem_nil _⟩

/-! ### Block outputs -/

/-- The state in which a block output writes its port: the byte has been read and `B` counted down (R478). -/
def beforeOutput (s : State) : State := setB (s.cpu.b - 1#8) (read8 (hl s) s).2

theorem blockOutput_eq (step : Word) (s : State) : blockOutput step s = setFlags (blockIoFlags (s.cpu.b - 1#8))
    (setHL (hl s + step) (portWrite (wordOf (s.cpu.b - 1#8) s.cpu.c) (peek s (hl s)) (beforeOutput s))) := by
  have hcpu := (portWrite_ports (wordOf (s.cpu.b - 1#8) s.cpu.c) (peek s (hl s)) (beforeOutput s)).1
  change (let w := portWrite (wordOf (s.cpu.b - 1#8) s.cpu.c) (peek s (hl s)) (beforeOutput s)
    setFlags (blockIoFlags w.cpu.b) (setHL (hl w + step) w)) = _
  generalize portWrite (wordOf (s.cpu.b - 1#8) s.cpu.c) (peek s (hl s)) (beforeOutput s) = w at hcpu ⊢
  simp [hl, hcpu, beforeOutput]

/-- All that one byte of a block output does. -/
theorem blockOutput_spec (step : Word) (s : State) : let u := blockOutput step s
    PortEffect (portWrite (wordOf (s.cpu.b - 1#8) s.cpu.c) (peek s (hl s)) s) s u ∧
      u.cpu.b = s.cpu.b - 1#8 ∧ hl u = hl s + step ∧ u.cpu.f.z = decide (s.cpu.b - 1#8 = 0#8) ∧
      u.cpu.f.n = true ∧ u.cpu.f.c = s.cpu.f.c ∧ Accessed (reads [hl s]) s u ∧ RegsKept [.b, .h, .l] s u ∧
      (∀ key, cell u key = cell s key) ∧ (u.slots = s.slots → ∀ a, peek u a = peek s a) := by
  have hsame : SamePorts s (beforeOutput s) := ⟨rfl, rfl, rfl, rfl, rfl, rfl⟩
  have hcongr := portWrite_congr hsame (wordOf (s.cpu.b - 1#8) s.cpu.c) (peek s (hl s))
  have hports := portWrite_ports (wordOf (s.cpu.b - 1#8) s.cpu.c) (peek s (hl s)) (beforeOutput s)
  rw [blockOutput_eq]
  generalize portWrite (wordOf (s.cpu.b - 1#8) s.cpu.c) (peek s (hl s)) (beforeOutput s) = w at hcongr hports ⊢
  obtain ⟨-, hperiph, hscript, hslots, hula, hfailure⟩ := hcongr
  have hcell := hports.cell
  have hpeek := hports.peek
  obtain ⟨hcpu, -, hwatch, hactivity, -, -, hothers⟩ := hports
  have hrest := congrArg (fun u : State => { u with cpu := s.cpu, watch := s.watch, activity := s.activity }) hothers
  have hb : RegsKept [.b, .h, .l] s (beforeOutput s) :=
    regsKept_setR8 (g := .b) (t := (read8 (hl s) s).2) (regsKept_self s _) (by decide) _
  have hhl := regsKept_hostSet16 (r := .hl) (hb.of_cpu hcpu) (by decide) (by decide) (hl s + step)
  refine ⟨⟨hperiph, hscript, hslots, hula, hfailure, hrest⟩, congrArg Cpu.b hcpu, by simp [hl], ?_, rfl, ?_,
    ⟨hwatch, hactivity⟩, hhl, hcell, hpeek⟩
  · simp [blockIoFlags, beq_eq_decide]
  · exact (congrArg (fun c : Cpu => c.f.c) hcpu :)

/-- The row's instruction outputs one byte, and says whether it goes on. -/
def OutputsByte (s : State) (row : Instr × Word × Bool) : Prop :=
  let left := s.cpu.b - 1#8
  let w := portWrite (left ++ s.cpu.c) (peek s (hl s)) s
  let again := row.2.2 && decide (left ≠ 0#8)
  ∃ t, exec row.1 s = .next t ∧ t.tIns = (if again then 21 else 16) ∧ PortEffect w s t ∧
    t.cpu.b = left ∧ hl t = hl s + row.2.1 ∧ t.cpu.pc = (if again then s.pc0 else s.cpu.pc) ∧
    t.cpu.f.z = decide (left = 0#8) ∧ t.cpu.f.n = true ∧ t.cpu.f.c = s.cpu.f.c ∧
    Accessed (reads [hl s]) s t ∧ RegsKept [.b, .h, .l, .pc] s t ∧
    (∀ key, cell t key = cell s key) ∧ (t.slots = s.slots → ∀ a, peek t a = peek s a)

theorem outputsByte_blockOutput {step : Word} {repeats : Bool}
    (h : exec i s = repeatWhile (repeats && (blockOutput step s).cpu.b != 0#8) (blockOutput step s)) :
    OutputsByte s (i, step, repeats) := by
  obtain ⟨heffect, hb, hhl, hz, hn, hc, haccesses, hregs, hcell, hpeek⟩ := blockOutput_spec step s
  rw [hb, bne_eq_decide_ne_byte, repeatWhile_eq_done, heffect.pc0, hregs .pc (by decide)] at h
  exact ⟨_, h, rfl, heffect, hb, hhl, rfl, hz, hn, hc, haccesses, regsKept_setPC hregs (by decide) (by decide) _,
    hcell, hpeek⟩

/-- Settles O43: each form outputs one byte, and a repeating one goes on while the new `B` is not 0. -/
theorem blockOutputs : Obligations.BlockOutputs := by
  intro s
  change ∀ row ∈ _, OutputsByte s row
  simp only [List.forall_mem_cons]
  exact ⟨outputsByte_blockOutput rfl, outputsByte_blockOutput rfl, outputsByte_blockOutput rfl,
    outputsByte_blockOutput rfl, List.forall_mem_nil _⟩

end Sys2Proof.Machine
end

section
/-! PROOFS. Interrupt entries and the end of a call of `ExecuteOne` (60_exceptions.md R502, R511, R520 to R524, R530 to
R533; 70_reset_and_hazards.md R622). -/

namespace Sys2Proof.Machine

variable {s t u v : State} {bus : Byte}

/-! ### Requests refused and accepted -/

theorem isRestart_iff : isRestart bus = true ↔ bus &&& 0xC7#8 = 0xC7#8 := by simp [isRestart]

/-- A request that is not accepted changes nothing (60_exceptions.md R521). -/
theorem generateInterrupt_refused (h : s.cpu.iff1 = false ∨ s.cpu.eiShadow = true) :
    generateInterrupt false bus s = (0, s) := by
  have hrefused : acceptsMaskable s = false := by
    rcases h with h | h <;> simp [acceptsMaskable, h]
  simp [generateInterrupt, hrefused]

/-- In mode 0 a bus byte that is no restart opcode sets the mark and changes nothing else (60_exceptions.md R502). -/
theorem generateInterrupt_unsupported (hiff : s.cpu.iff1 = true) (hei : s.cpu.eiShadow = false)
    (him : s.cpu.im = .im0) (hbus : bus &&& 0xC7#8 ≠ 0xC7#8) :
    generateInterrupt false bus s = (0, { s with fault := some (.im0Unsupported bus) }) := by
  have hno : isRestart bus = false := by simpa [isRestart] using hbus
  simp [generateInterrupt, acceptsMaskable, hiff, hei, him, hno]

theorem generateInterrupt_accepted (h : Accepts bus s) :
    generateInterrupt false bus s = enterInterrupt false bus s := by
  obtain ⟨hiff, hei, him⟩ := h
  have hrestart : ¬ (s.cpu.im = .im0 ∧ (!isRestart bus) = true) := by
    rintro ⟨h0, hno⟩
    simp [isRestart_iff.mpr (him h0)] at hno
  simp only [generateInterrupt, acceptsMaskable, hiff, hei, if_neg hrestart]
  rfl

/-- Settles O50: each clause is one end of `GenerateInterrupt`, and `EI` sets `ei_shadow`. -/
theorem maskableRefused : Obligations.MaskableRefused := fun _ _ =>
  ⟨generateInterrupt_refused, ⟨_, rfl, generateInterrupt_refused (.inr rfl)⟩, generateInterrupt_unsupported⟩

/-! ### An entry -/

/-- Where an entry goes: a non-maskable one to 0x0066, and a maskable one to the vector of its mode
(60_exceptions.md R522). -/
def entryTarget (nmi : Bool) (bus : Byte) (s : State) : Word :=
  if nmi then 0x0066#16
  else match s.cpu.im with
    | .im0 => (bus &&& 0x38#8).setWidth 16
    | .im1 => 0x0038#16
    | .im2 => readAfter s (entryPushes s) (wordOf s.cpu.i bus + 1#16) ++
        readAfter s (entryPushes s) (wordOf s.cpu.i bus)

/-- The CPU after an entry (60_exceptions.md R520, R522). -/
def entryCpu (nmi : Bool) (bus : Byte) (s : State) : Cpu :=
  { s.cpu with
    pc := entryTarget nmi bus s, sp := s.cpu.sp - 2#16, r := nextR s.cpu.r, halted := false
    iff1 := false, iff2 := if nmi then s.cpu.iff2 else false }

/-- The bus accesses of an entry: the two pushes, and in mode 2 the two reads of the vector (60_exceptions.md R522). -/
def entryAccesses (nmi : Bool) (bus : Byte) (s : State) : List (AccessKind × Word) :=
  writes [s.cpu.sp - 1#16, s.cpu.sp - 2#16] ++
    (if nmi = false ∧ s.cpu.im = .im2 then reads [wordOf s.cpu.i bus, wordOf s.cpu.i bus + 1#16] else [])

/-- What a state has after its `PC` is set, where its CPU is that of an accepted interrupt before the vector. -/
theorem setPC_cpu_of_saved {nmi : Bool} {target back : Word} (ht : target = entryTarget nmi bus s)
    (h : u.cpu = { s.cpu with
      pc := back, sp := s.cpu.sp - 2#16, r := nextR s.cpu.r, halted := false
      iff1 := false, iff2 := if nmi then s.cpu.iff2 else false }) : (setPC target u).cpu = entryCpu nmi bus s := by
  subst ht
  rw [setPC, h]
  rfl

/-- All that an entry does. -/
theorem enterInterrupt_spec (hw : Memory.wf s.cfg s.mem = true) (nmi : Bool) (bus : Byte) :
    let r := enterInterrupt nmi bus s
    r.1 = (if nmi then 11 else maskableCost s.cpu.im) ∧ r.2.cpu = entryCpu nmi bus s ∧
      Stored (entryPushes s) s r.2 ∧ Accessed (entryAccesses nmi bus s) s r.2 ∧ OthersKept s r.2 := by
  obtain ⟨hcpu, hstored, haccesses, hothers⟩ := saveReturn_spec hw nmi
  change Stored (entryPushes s) s _ at hstored
  unfold enterInterrupt
  generalize saveReturn nmi s = w at hcpu hstored haccesses hothers
  cases nmi with
  | true => exact ⟨rfl, setPC_cpu_of_saved rfl hcpu, hstored, haccesses, hothers⟩
  | false =>
    have him : w.cpu.im = s.cpu.im := by rw [hcpu]
    have hi : w.cpu.i = s.cpu.i := by rw [hcpu]
    simp only [entryAccesses, him, hi, Bool.false_eq_true, if_false, true_and]
    cases hmode : s.cpu.im with
    | im0 => exact ⟨rfl, setPC_cpu_of_saved (by simp [entryTarget, hmode]) hcpu, hstored, haccesses, hothers⟩
    | im1 => exact ⟨rfl, setPC_cpu_of_saved (by simp [entryTarget, hmode]) hcpu, hstored, haccesses, hothers⟩
    | im2 =>
      obtain ⟨hkept, hmem, hread, hrest⟩ := memRead16_spec (s := w) (wordOf s.cpu.i bus)
      refine ⟨rfl, setPC_cpu_of_saved ?_ (hkept.trans hcpu), hstored, (haccesses.read _).read _, hothers⟩
      simp [entryTarget, hmode, memRead16_fst, hstored.1, wordOf]

end Sys2Proof.Machine
end

section
/-! PROOFS. Interrupt entries and the return from them (60_exceptions.md R520 to R524), and what the instruction of a
call leaves alone (R530). -/

namespace Sys2Proof.Machine

variable {s t u v : State} {bus : Byte}

theorem entryCpu_regsKept (nmi : Bool) (bus : Byte) (h : t.cpu = entryCpu nmi bus s) :
    RegsKept [.pc, .sp, .r, .iff1, .iff2, .halted] s t := by
  intro reg hreg
  cases reg with
  | pc | sp | r | iff1 | iff2 | halted => exact absurd (by decide) hreg
  | _ => simp [Reg.kept, h, entryCpu]

/-- Settles O49: an accepted request is an entry. -/
theorem maskableEntry : Obligations.MaskableEntry := by
  intro s bus hw hiff hei him back pushes entry r
  obtain ⟨hcost, hcpu, hstored, haccesses, hothers⟩ := enterInterrupt_spec hw false bus
  rw [← generateInterrupt_accepted ⟨hiff, hei, him⟩] at hcost hcpu hstored haccesses hothers
  have hregs := entryCpu_regsKept false bus hcpu
  refine ⟨?_, ?_, congrArg Cpu.sp hcpu, congrArg Cpu.r hcpu, congrArg Cpu.iff1 hcpu, congrArg Cpu.iff2 hcpu,
    congrArg Cpu.halted hcpu, hstored, ?_, (congrArg Cpu.f hcpu :), hregs, hothers⟩
  · rw [show r.1 = maskableCost s.cpu.im from hcost]
    cases s.cpu.im <;> rfl
  · rw [show r.2.cpu = entryCpu false bus s from hcpu]
    simp only [entryCpu, entryTarget, Bool.false_eq_true, if_false]
    cases s.cpu.im <;> rfl
  · simp only [entryAccesses, true_and] at haccesses
    exact haccesses

/-! ### Return from a non-maskable entry -/

theorem samePlace_self {a : Word} (h : writable s a = true) : samePlace s a a = true := by
  cases hp : locate s.cfg s.slots a <;> simp [writable, samePlace, placeKey, hp] at h ⊢

theorem samePlace_comm (s : State) (a b : Word) : samePlace s a b = samePlace s b a := by
  cases ha : placeKey s a <;> cases hb : placeKey s b <;> simp [samePlace, ha, hb, eq_comm]

/-- Two bytes pushed to different bytes of RAM read back. -/
theorem readAfter_two {a b : Word} {x y : Byte} (ha : writable s a = true) (hb : writable s b = true)
    (hab : samePlace s a b = false) :
    readAfter s [(a, x), (b, y)] a = x ∧ readAfter s [(a, x), (b, y)] b = y := by
  simp [readAfter, samePlace_self ha, samePlace_self hb, samePlace_comm s b a, hab, ha, hb]

theorem nmiTaken_of_entry (hcpu : t.cpu = entryCpu true bus s) (hstored : Stored (entryPushes s) s t) :
    NmiTaken s t := by
  refine ⟨congrArg Cpu.pc hcpu, congrArg Cpu.sp hcpu, congrArg Cpu.r hcpu, congrArg Cpu.iff1 hcpu,
    congrArg Cpu.halted hcpu, hstored, (congrArg Cpu.f hcpu :), fun reg hreg => ?_⟩
  cases reg with
  | pc | sp | r | iff1 | halted => exact absurd (by decide) hreg
  | _ => simp [Reg.kept, hcpu, entryCpu]

theorem nmiEntryAndReturn : Obligations.NmiEntryAndReturn := by
  intro s bus hw back sp r
  obtain ⟨hcost, hcpu, hstored, haccesses, hothers⟩ := enterInterrupt_spec hw true bus
  change r.1 = _ at hcost
  change r.2.cpu = _ at hcpu
  change Stored _ s r.2 at hstored
  change Accessed _ s r.2 at haccesses
  change OthersKept s r.2 at hothers
  obtain ⟨hpc, hsp, hr, hiff1, hhalted, -, hflags, hregs⟩ := nmiTaken_of_entry hcpu hstored
  refine ⟨hcost, hpc, hsp, hr, hiff1, hhalted, hstored, haccesses, hflags, hregs, hothers, fun hhigh hlow hapart => ?_⟩
  obtain ⟨hreadHigh, hreadLow⟩ := readAfter_two (x := hiByte back) (y := loByte back) hhigh hlow hapart
  have hhighAt : sp - 2#16 + 1#16 = sp - 1#16 := by bv_omega
  have htop : sp - 2#16 + 2#16 = sp := by bv_omega
  have hback : wordOf (peek r.2 (r.2.cpu.sp + 1#16)) (peek r.2 r.2.cpu.sp) = back := by
    rw [hsp, hhighAt, hstored.1, hstored.1]
    exact (congrArg₂ wordOf hreadHigh hreadLow).trans (wordOf_hiByte_loByte back)
  obtain ⟨htarget, hpop, -⟩ := popWord_spec (s := r.2)
  refine ⟨_, rfl, htarget.trans hback, ?_, ?_⟩
  · refine (congrArg Cpu.sp hpop).trans ?_
    change r.2.cpu.sp + 2#16 = sp
    rw [hsp, htop]
  · refine (congrArg Cpu.iff2 hpop).trans ?_
    exact (congrArg Cpu.iff2 hcpu :)

/-! ### What the instruction of a call leaves alone -/

/-- The ULA but for what a fetch and a port access may change: the signals, the line records, the kept character. -/
def ulaCore (s : State) : Ula :=
  { s.ula with syncReq := false, nmiOn := false, scanRec := [], colorRec := [], pendingChar := none }

theorem PortsOnly.ulaCore (h : PortsOnly s t) : ulaCore t = ulaCore s := by
  obtain ⟨-, -, -, -, -, -, hothers⟩ := h
  exact (congrArg Machine.ulaCore hothers :)

theorem ulaCore_closed (x : Ula) : Closed (fun s => ulaCore s = x) :=
  closed_of_view ulaCore x (fun _ _ => rfl) (fun _ _ => rfl) (fun _ _ => rfl) (fun _ _ _ => rfl) (fun _ _ _ => rfl)
    (fun _ _ => (portRead_ports _ _).ulaCore) (fun _ _ _ => (portWrite_ports _ _ _).ulaCore)

theorem FetchOnly.fixed (h : FetchOnly s t) : fixed t = fixed s := by
  unfold FetchOnly at h
  rw [h]
  rfl

theorem FetchOnly.ulaCore (h : FetchOnly s t) : ulaCore t = ulaCore s := by
  unfold FetchOnly at h
  rw [h]
  rfl

/-- What the instruction of a call keeps: a view of a state that the fetch, the start of the call and `PC` leave alone,
and every instruction. -/
theorem Ran.kept {α : Type} {view : State → α} (hclosed : ∀ x, Closed (fun s => view s = x))
    (hfetch : view (fetchInstr (beginCall s)).2 = view (beginCall s)) (h : Ran s u) : view u = view (beginCall s) := by
  obtain ⟨i, rest, -, hexec⟩ := h
  obtain ⟨t, ht, hview⟩ := exec_closed (hclosed _) ((hclosed (view (beginCall s))).setPC hfetch _) i
  cases hexec.symm.trans ht
  exact hview

theorem Ran.fixed (h : Ran s u) : fixed u = fixed (beginCall s) := h.kept fixed_closed (fetchInstr_fetchOnly _).fixed

theorem Ran.ulaCore (h : Ran s u) : ulaCore u = ulaCore s :=
  h.kept ulaCore_closed (fetchInstr_fetchOnly (beginCall s)).ulaCore

theorem Ran.cfg (h : Ran s u) : u.cfg = s.cfg := congrArg Fixed.cfg h.fixed
theorem Ran.fault (h : Ran s u) : u.fault = s.fault := congrArg Fixed.fault h.fixed
theorem Ran.pc0 (h : Ran s u) : u.pc0 = s.cpu.pc := congrArg Fixed.pc0 h.fixed

/-- The call has consumed the deferred request, and the instruction does not touch the countdown. -/
theorem Ran.held (h : Ran s u) : u.cpu.intDeferred = false ∧ u.cpu.intCountdown = s.cpu.intCountdown := by
  obtain ⟨i, rest, -, hexec⟩ := h
  obtain ⟨hdeferred, hcountdown⟩ := exec_held i hexec
  rw [hdeferred, hcountdown]
  simp only [setPC_cpu_intDeferred, setPC_cpu_intCountdown]
  rw [fetchInstr_fetchOnly (beginCall s)]
  exact ⟨rfl, rfl⟩

theorem Ran.memory_wf (h : Ran s u) (hw : Memory.wf s.cfg s.mem = true) : Memory.wf u.cfg u.mem = true := by
  obtain ⟨hkept, -⟩ := (romKept_stepClosed s).toCallClosed.ran (RomKept.refl hw) h
  exact hkept.memory

/-- The call is the instruction and the end of the call (60_exceptions.md R530). -/
theorem Ran.executeOne_eq (h : Ran s u) : executeOne s = .next (finishCall s.cpu.intDeferred u) := by
  obtain ⟨i, rest, hdecode, hexec⟩ := h
  have hpc0 : (fetchInstr (beginCall s)).2.pc0 = s.cpu.pc := by rw [fetchInstr_fetchOnly (beginCall s)]; rfl
  simp only [executeOne, hdecode, hpc0, hexec]

end Sys2Proof.Machine
end

section
/-! PROOFS. The parts of the end of a call: the entries, the edge detector, the countdown, the accounting
(60_exceptions.md R530 to R534). -/

namespace Sys2Proof.Machine

variable {s t u v : State} {bus : Byte}

/-! ### The parts of the end of a call -/

/-- The accounting at the end of a call that made no fault: what `LoadAccount` keeps, and the T-states returned
(60_exceptions.md R530, R534). -/
def closeCall (idle : Bool) (tIns x y : Nat) (s : State) : State :=
  { loadAccount idle tIns (x + y) (accepted x + accepted y) s with tCall := tIns + x + y }

theorem closeCall_only (idle : Bool) (tIns x y : Nat) (s : State) : let t := closeCall idle tIns x y s
    t = { s with load := t.load, tCall := tIns + x + y } := by
  dsimp only [closeCall]
  rw [loadAccount_only]

@[simp] theorem closeCall_tCall (idle : Bool) (tIns x y : Nat) (s : State) :
    (closeCall idle tIns x y s).tCall = tIns + x + y := rfl
@[simp] theorem closeCall_cfg (idle : Bool) (tIns x y : Nat) (s : State) :
    (closeCall idle tIns x y s).cfg = s.cfg := by rw [closeCall_only]
@[simp] theorem closeCall_cpu (idle : Bool) (tIns x y : Nat) (s : State) :
    (closeCall idle tIns x y s).cpu = s.cpu := by rw [closeCall_only]
@[simp] theorem closeCall_mem (idle : Bool) (tIns x y : Nat) (s : State) :
    (closeCall idle tIns x y s).mem = s.mem := by rw [closeCall_only]
@[simp] theorem closeCall_slots (idle : Bool) (tIns x y : Nat) (s : State) :
    (closeCall idle tIns x y s).slots = s.slots := by rw [closeCall_only]
@[simp] theorem closeCall_ula (idle : Bool) (tIns x y : Nat) (s : State) :
    (closeCall idle tIns x y s).ula = s.ula := by rw [closeCall_only]
@[simp] theorem closeCall_fault (idle : Bool) (tIns x y : Nat) (s : State) :
    (closeCall idle tIns x y s).fault = s.fault := by rw [closeCall_only]
@[simp] theorem closeCall_tTotal (idle : Bool) (tIns x y : Nat) (s : State) :
    (closeCall idle tIns x y s).tTotal = s.tTotal := by rw [closeCall_only]

theorem generateInterrupt_ula (nmi : Bool) (bus : Byte) (s : State) : (generateInterrupt nmi bus s).2.ula = s.ula := by
  unfold generateInterrupt
  repeat' split
  · exact (enterInterrupt_timing _ _ _).2
  · rfl
  · rfl
  · exact (enterInterrupt_timing _ _ _).2

theorem countdownEntry_tIns (n : Nat) (s : State) : (countdownEntry n s).2.tIns = s.tIns := by
  obtain ⟨-, heq⟩ | ⟨-, -, heq⟩ | ⟨-, -, u, x, v, rfl, hentry, heq⟩ := countdownEntry_cases n s <;> rw [heq]
  · rfl
  · have htIns := generateInterrupt_tIns false s.cfg.intBusByte
      (setCountdown (s.cpu.intCountdown - n + s.cfg.intPeriodT) s)
    rw [hentry] at htIns
    exact htIns

/-- Where neither entry leaves a fault, the whole end of a call runs. -/
theorem finishCall_of_entries {fire : Bool} {x y : Nat} (hd : deferredEntry fire s = (x, u)) (hu : u.fault = none)
    (hc : countdownEntry (s.tIns + x) (edgeDetect u) = (y, v)) (hv : v.fault = none) :
    finishCall fire s = closeCall s.cpu.halted s.tIns x y v := by
  have hutIns : u.tIns = s.tIns := by simpa [hd] using deferredEntry_tIns fire s
  have hvtIns : v.tIns = s.tIns := by
    have hkept := countdownEntry_tIns (s.tIns + x) (edgeDetect u)
    rw [hc, edgeDetect_tIns, hutIns] at hkept
    exact hkept
  simp [finishCall, closeCall, hd, hu, hutIns, hc, hv, hvtIns]

/-- Where a call ends in no fault, it has closed after its two entries. -/
theorem finishCall_closed {fire : Bool} (hf : (finishCall fire s).fault = none) :
    ∃ x u y v, deferredEntry fire s = (x, u) ∧ u.fault = none ∧
      countdownEntry (s.tIns + x) (edgeDetect u) = (y, v) ∧ v.fault = none ∧
      finishCall fire s = closeCall s.cpu.halted s.tIns x y v := by
  obtain ⟨x, u, y, v, hd, hu, hc, hv, -⟩ := finishCall_of_no_fault hf
  exact ⟨x, u, y, v, hd, hu, hc, hv, finishCall_of_entries hd hu hc hv⟩

theorem edgeDetect_only (s : State) : let t := edgeDetect s
    t = { s with
      cpu := { s.cpu with intDeferred := t.cpu.intDeferred }, ula := { s.ula with prevR := t.ula.prevR } } := by
  unfold edgeDetect
  split <;> rfl

/-- The countdown after a request that is not accepted (60_exceptions.md R530, R533). -/
def countdownAfter (n : Nat) (s : State) : Int :=
  let left := s.cpu.intCountdown - n
  if s.cfg.intPeriodT = 0 then s.cpu.intCountdown else if left ≤ 0 then left + s.cfg.intPeriodT else left

theorem countdownEntry_refused (n : Nat) (h : s.cpu.iff1 = false ∨ s.cpu.eiShadow = true) :
    countdownEntry n s = (0, setCountdown (countdownAfter n s) s) := by
  obtain ⟨hoff, heq⟩ | ⟨hon, hleft, heq⟩ | ⟨hon, hleft, u, x, v, hu, hentry, heq⟩ := countdownEntry_cases n s <;>
    rw [heq]
  · simp [countdownAfter, hoff, setCountdown]
  · simp [countdownAfter, hon, Int.not_le.mpr hleft]
  · have hrefused : u.cpu.iff1 = false ∨ u.cpu.eiShadow = true := by rw [hu]; exact h
    rw [generateInterrupt_refused hrefused, hu] at hentry
    cases hentry
    simp [countdownAfter, hon, hleft, setCountdown]

theorem countdownEntry_running {n : Nat} (hon : s.cfg.intPeriodT ≠ 0) (hleft : 0 < s.cpu.intCountdown - n) :
    countdownEntry n s = (0, setCountdown (s.cpu.intCountdown - n) s) := by
  simp [countdownEntry, hon, Int.not_le.mpr hleft]

theorem countdownEntry_off {n : Nat} (hoff : s.cfg.intPeriodT = 0) : countdownEntry n s = (0, s) := if_pos hoff

theorem countdownEntry_accepted {n : Nat} (hon : s.cfg.intPeriodT ≠ 0) (hleft : s.cpu.intCountdown - n ≤ 0)
    (h : Accepts s.cfg.intBusByte s) :
    ∃ x v, enterInterrupt false s.cfg.intBusByte (setCountdown (s.cpu.intCountdown - n + s.cfg.intPeriodT) s) = (x, v) ∧
      countdownEntry n s = (x, setCountdown (v.cpu.intCountdown - x) v) := by
  obtain ⟨hoff, -⟩ | ⟨-, hpos, -⟩ | ⟨-, -, u, x, v, hu, hentry, heq⟩ := countdownEntry_cases n s
  · exact absurd hoff hon
  · omega
  · have haccepts : Accepts s.cfg.intBusByte u := by rw [hu]; exact h
    rw [generateInterrupt_accepted haccepts, hu] at hentry
    exact ⟨x, v, hentry, heq⟩

/-- What the countdown and its request leave alone where no fault is made. -/
theorem countdownEntry_kept {n : Nat} (hf : (countdownEntry n s).2.fault = none) : let t := (countdownEntry n s).2
    fixed t = fixed s ∧ t.ula = s.ula ∧ t.cpu.intDeferred = s.cpu.intDeferred := by
  obtain ⟨-, heq⟩ | ⟨-, -, heq⟩ | ⟨-, -, u, x, v, rfl, hentry, heq⟩ := countdownEntry_cases n s <;> rw [heq] at hf ⊢
  · exact ⟨rfl, rfl, rfl⟩
  · exact ⟨rfl, rfl, rfl⟩
  · have hkept := generateInterrupt_fault (by rw [hentry]; exact hf)
    obtain ⟨hfixed, hdeferred, -⟩ := generateInterrupt_fixed _ _ hkept
    have hula := generateInterrupt_ula false s.cfg.intBusByte
      (setCountdown (s.cpu.intCountdown - n + s.cfg.intPeriodT) s)
    rw [hentry] at hfixed hdeferred hula
    exact ⟨hfixed, hula, hdeferred⟩

end Sys2Proof.Machine
end

section
/-! PROOFS. The T-states of a call and a step (70_reset_and_hazards.md R622), and the step of a machine without ULA and
interrupt sources (60_exceptions.md R541). -/

namespace Sys2Proof.Machine

variable {s t u v : State} {bus : Byte} {P : State → Prop}

/-! ### What the end of a call and the ULA leave alone -/

theorem deferredEntry_kept {fire : Bool} (hf : (deferredEntry fire s).2.fault = none) :
    let t := (deferredEntry fire s).2
    fixed t = fixed s ∧ t.ula = s.ula ∧ t.cpu.intDeferred = s.cpu.intDeferred ∧
      t.cpu.intCountdown = s.cpu.intCountdown := by
  cases fire with
  | false => exact ⟨rfl, rfl, rfl, rfl⟩
  | true =>
    rw [deferredEntry_true] at hf ⊢
    obtain ⟨hfixed, hheld⟩ := generateInterrupt_fixed false s.cfg.intBusByte (generateInterrupt_fault hf)
    exact ⟨hfixed, generateInterrupt_ula _ _ _, hheld⟩

theorem edgeDetect_fixed (s : State) : fixed (edgeDetect s) = fixed s := by rw [edgeDetect_only]; rfl

/-- The end of a call without a fault changes the accounting and the T-states returned alone of what no instruction
changes. -/
theorem finishCall_fixed {fire : Bool} (hf : (finishCall fire s).fault = none) : let t := finishCall fire s
    fixed t = { fixed s with load := t.load, tCall := t.tCall } := by
  obtain ⟨x, u, y, v, hd, hu, hc, hv, heq⟩ := finishCall_closed hf
  have hfirst := (deferredEntry_kept (by rw [hd]; exact hu)).1
  have hsecond := (countdownEntry_kept (by rw [hc]; exact hv)).1
  rw [hd] at hfirst
  rw [hc, edgeDetect_fixed, hfirst] at hsecond
  rw [heq, ← hsecond, closeCall_only]
  rfl

/-! ### The parts of a ULA step -/

/-- The clocks move on by `n` T-states (60_exceptions.md R547). -/
def moveClock (n : Nat) (s : State) : State :=
  { s with ula := { s.ula with t := s.ula.t + n, lineT := s.ula.lineT + n } }

/-- The clocks at a horizontal-sync rising edge: the scanline is complete (60_exceptions.md R547). -/
def atEdge (s : State) : State :=
  { s with ula := { s.ula with
    lineT := s.ula.lineT - s.cfg.tScanline
    hsyncEdgeT := s.ula.t - (s.ula.lineT - s.cfg.tScanline)
    line := s.ula.line + 1 } }

theorem hsyncEdge_eq (s : State) : hsyncEdge s = hsyncActions (endOfLine (atEdge s)) := rfl

theorem advanceUla_eq (n : Nat) (s : State) : advanceUla n s =
    let r := hsyncEdges ((s.ula.lineT + n) / s.cfg.tScanline) (moveClock n s)
    (r.1, moveClock r.1 (vsyncTrack r.2)) := rfl

theorem hsyncActions_of_off (h : s.ula.nmiOn = false) : hsyncActions s = (0, s) := if_neg (by simp [h])

theorem hsyncActions_of_on (h : s.ula.nmiOn = true) : hsyncActions s =
    ((if s.cpu.halted then s.cfg.waitExtOf (s.ula.t - s.ula.hsyncEdgeT) else 0) + (enterInterrupt true 0x00#8 s).1,
      (enterInterrupt true 0x00#8 s).2) := if_pos h

theorem endOfLine_of_busReplay (h : s.cfg.ulaVariant = .busReplay) : endOfLine s = { s with ula := { s.ula with
    work := s.ula.work ++ [s.ula.scanRec], colorWork := s.ula.colorWork ++ [s.ula.colorRec]
    scanRec := [], colorRec := [] } } := by simp [endOfLine, h]

theorem endOfLine_of_ne_busReplay (h : s.cfg.ulaVariant ≠ .busReplay) : endOfLine s = s := by
  unfold endOfLine
  split
  · exact absurd ‹_› h
  · rfl
  · rfl

theorem frameComplete_of_none (h : s.cfg.ulaVariant = .none) : frameComplete s = s := by simp [frameComplete, h]

theorem frameComplete_of_bufferReplay (h : s.cfg.ulaVariant = .bufferReplay) : frameComplete s = { s with
    ula := { s.ula with
      frame := some (.bytes (readBlock s s.cfg.displayBase s.cfg.displayLen)), frameT := s.ula.t }
    notices := s.notices ++ [.frameReady] } := by simp [frameComplete, h]

theorem frameComplete_of_busReplay (h : s.cfg.ulaVariant = .busReplay) : frameComplete s = { s with
    ula := { s.ula with
      frame := some (.lines s.ula.work s.ula.colorWork), frameT := s.ula.t
      work := [], colorWork := [], scanRec := [], colorRec := [] }
    notices := s.notices ++ [.frameReady] } := by simp [frameComplete, h]

section UlaStep

variable (h : Closed P)
  (hdisplay : ∀ {s} (ula : Ula) (notices : List Notice), P s → P { s with ula := ula, notices := notices })
include h hdisplay

theorem Closed.hsyncEdges (hs : P s) (n : Nat) : P (hsyncEdges n s).2 := by
  induction n generalizing s with
  | zero => exact hs
  | succ n ih =>
    have hline : P (endOfLine (atEdge s)) := by rw [endOfLine_only]; exact hdisplay _ _ (hdisplay _ s.notices hs)
    refine ih (s := (hsyncEdge s).2) ?_
    rw [hsyncEdge_eq]
    cases hon : (endOfLine (atEdge s)).ula.nmiOn
    · rwa [hsyncActions_of_off hon]
    · rw [hsyncActions_of_on hon]
      exact h.enterInterrupt hline true 0x00#8

/-- A ULA step keeps what entries, its own fields and the notifications leave alone. -/
theorem Closed.ulaStep (hs : P s) (n : Nat) : P (ulaStep n s).2 := by
  have hclock {w : State} (k : Nat) (hw : P w) : P (moveClock k w) := hdisplay _ w.notices hw
  have hvsync {w : State} (hw : P w) : P (vsyncTrack w) := by rw [vsyncTrack_only]; exact hdisplay _ _ hw
  have hadvance {w : State} (hw : P w) : P (advanceUla n w).2 :=
    hclock _ (hvsync (h.hsyncEdges hdisplay (hclock n hw) _))
  unfold Machine.ulaStep
  split
  · exact hs
  · exact hadvance hs
  · refine hadvance ?_
    rw [showPending_display]
    exact hdisplay _ _ hs

end UlaStep

/-- What no instruction, no entry and no ULA step changes. -/
def fixedByUla (s : State) : Fixed := { fixed s with notices := [] }

theorem fixedByUla_closed (x : Fixed) : Closed (fun s => fixedByUla s = x) :=
  closed_of_view fixedByUla x (fun _ _ => rfl) (fun _ _ => rfl) (fun _ _ => rfl) (fun _ _ _ => rfl) (fun _ _ _ => rfl)
    (fun _ _ => congrArg ({ · with notices := [] }) (portRead_ports _ _).fixed)
    (fun _ _ _ => congrArg ({ · with notices := [] }) (portWrite_ports _ _ _).fixed)

theorem ulaStep_fixedByUla (n : Nat) (s : State) : fixedByUla (ulaStep n s).2 = fixedByUla s :=
  (fixedByUla_closed (fixedByUla s)).ulaStep (fun _ _ h => h) rfl n

theorem ulaStep_held (n : Nat) (s : State) : (ulaStep n s).2.cpu.intDeferred = s.cpu.intDeferred ∧
    (ulaStep n s).2.cpu.intCountdown = s.cpu.intCountdown :=
  (held_closed s.cpu.intDeferred s.cpu.intCountdown).ulaStep (fun _ _ h => h) ⟨rfl, rfl⟩ n

/-! ### The T-states of a call and of a step -/

theorem enterInterrupt_iff1 (nmi : Bool) (bus : Byte) (s : State) : (enterInterrupt nmi bus s).2.cpu.iff1 = false := by
  have hsaved : (saveReturn nmi s).cpu.iff1 = false := by simp [saveReturn, pushWord]
  unfold enterInterrupt
  dsimp only
  repeat' split
  all_goals exact hsaved

/-- An interrupt that took T-states has disabled the next one. -/
theorem generateInterrupt_iff1 (h : (generateInterrupt false bus s).1 ≠ 0) :
    (generateInterrupt false bus s).2.cpu.iff1 = false := by
  revert h
  unfold generateInterrupt
  repeat' split
  · exact fun _ => enterInterrupt_iff1 _ _ _
  · exact fun h => absurd rfl h
  · exact fun h => absurd rfl h
  · exact fun _ => enterInterrupt_iff1 _ _ _

theorem countdownEntry_cost (n : Nat) (s : State) : (countdownEntry n s).1 ≤ 19 := by
  obtain ⟨-, heq⟩ | ⟨-, -, heq⟩ | ⟨-, -, u, x, v, -, hentry, heq⟩ := countdownEntry_cases n s <;> rw [heq]
  · exact Nat.zero_le _
  · exact Nat.zero_le _
  · have hcost := generateInterrupt_cost false s.cfg.intBusByte u
    rw [hentry] at hcost
    exact hcost

/-- A call makes at most one entry: the first leaves interrupts disabled for the second. -/
theorem entries_cost {fire : Bool} {n x y : Nat} (hd : deferredEntry fire s = (x, u))
    (hc : countdownEntry n (edgeDetect u) = (y, v)) : x + y ≤ 19 := by
  have hx : x ≤ 19 := by simpa [hd] using deferredEntry_cost fire s
  by_cases hzero : x = 0
  · have hy := countdownEntry_cost n (edgeDetect u)
    rw [hc] at hy
    omega
  · have hiff : u.cpu.iff1 = false := by
      cases fire with
      | false => simp only [deferredEntry_false, Prod.mk.injEq] at hd; exact absurd hd.1.symm hzero
      | true =>
        rw [deferredEntry_true] at hd
        have hentry := generateInterrupt_iff1 (s := s) (bus := s.cfg.intBusByte)
        rw [hd] at hentry
        exact hentry hzero
    have hedge : (edgeDetect u).cpu.iff1 = false := by rw [edgeDetect_only]; exact hiff
    rw [countdownEntry_refused n (.inl hedge)] at hc
    cases hc
    omega

theorem executeOne_cost (h : executeOne s = .next t) (hf : t.fault = none) : 4 ≤ t.tCall ∧ t.tCall ≤ 42 := by
  obtain ⟨u, ⟨i, rest, -, hexec⟩, rfl⟩ := executeOne_of_no_fault h hf
  obtain ⟨w, hw, hlow, hhigh⟩ := exec_costInRange i (setPC _ (fetchInstr (beginCall s)).2)
  cases hexec.symm.trans hw
  obtain ⟨x, _, y, _, hd, -, hc, -, heq⟩ := finishCall_closed hf
  have hentries := entries_cost hd hc
  rw [heq, closeCall_tCall]
  omega

theorem executeOne_fixed (h : executeOne s = .next t) (hf : t.fault = none) :
    fixed t = { fixed (beginCall s) with load := t.load, tCall := t.tCall } := by
  obtain ⟨u, hran, rfl⟩ := executeOne_of_no_fault h hf
  rw [← hran.fixed]
  exact finishCall_fixed hf

/-- Settles O10: a call is one instruction and at most one entry, and a step adds them and the ULA's T-states to
`t_total`. -/
theorem costBounds : Obligations.CostBounds := by
  refine ⟨fun i s t h => ?_, fun s t _ h hf => executeOne_cost h hf, fun s t h => ?_⟩
  · obtain ⟨u, hu, hcost⟩ := exec_costInRange i s
    cases hu.symm.trans h
    exact hcost
  · obtain ⟨-, u, hcall, hu, rfl⟩ := step_of_next h
    have hcost := executeOne_cost hcall hu
    have hbefore : u.tTotal = s.tTotal := (congrArg Fixed.tTotal (executeOne_fixed hcall hu) :)
    have hula : (ulaStep u.tCall u).2.tTotal = u.tTotal ∧ (ulaStep u.tCall u).2.tCall = u.tCall :=
      have hfixed := ulaStep_fixedByUla u.tCall u
      ⟨(congrArg Fixed.tTotal hfixed :), (congrArg Fixed.tCall hfixed :)⟩
    have htotal : (finishStep u).tTotal = s.tTotal + u.tCall + (ulaStep u.tCall u).1 := by
      rw [finishStep_of_no_fault hu, addCoverage_only, hula.1, hula.2, hbefore]
    exact ⟨by omega, u, hcall, htotal⟩

/-! ### A machine without ULA and interrupt sources -/

theorem finishCall_of_plain (hplain : Plain s) (hf : s.fault = none) :
    finishCall false s = closeCall s.cpu.halted s.tIns 0 0 s := by
  obtain ⟨-, hperiod, hbit, -⟩ := hplain
  have hedge : edgeDetect s = s := by simp [edgeDetect, hbit]
  exact finishCall_of_entries (deferredEntry_false s) hf (by rw [hedge]; exact countdownEntry_off hperiod) hf

/-- Without a ULA a step adds the T-states of its call, and `pc0` to the coverage set (60_exceptions.md R541, R567). -/
theorem finishStep_of_no_ula (hvariant : s.cfg.ulaVariant = .none) (hf : s.fault = none) :
    ∃ coverage, finishStep s = { s with tTotal := s.tTotal + s.tCall, coverage := coverage } ∧
      ∀ a, a ∈ coverage ↔ a ∈ s.coverage ∨ a = s.pc0 := by
  have hula : ulaStep s.tCall s = (0, s) := by simp [ulaStep, hvariant]
  rw [finishStep_of_no_fault hf, hula, addCoverage]
  split
  · next h =>
    have hmem : s.pc0 ∈ s.coverage := by simpa using h
    exact ⟨s.coverage, rfl, fun a => ⟨.inl, fun ha => ha.elim id fun heq => heq ▸ hmem⟩⟩
  · exact ⟨s.coverage ++ [s.pc0], rfl, fun a => by simp⟩

/-- Settles O8: the end of the call and the ULA add the T-states and the coverage alone. -/
theorem plainStepIsTheInstruction : Obligations.PlainStepIsTheInstruction := by
  intro s u i rest hfault ⟨hvariant, hperiod, hbit, hdeferred⟩ hdecode hexec
  have hquiet : intercepts s s.cpu.pc = false := by simp [intercepts, hvariant]
  have hfixed := exec_fixed i hexec
  have hcfg : u.cfg = s.cfg := (congrArg Fixed.cfg hfixed :)
  have hpc0 : u.pc0 = s.cpu.pc := (congrArg Fixed.pc0 hfixed :)
  have htotal : u.tTotal = s.tTotal := (congrArg Fixed.tTotal hfixed :)
  have hcoverage : u.coverage = s.coverage := (congrArg Fixed.coverage hfixed :)
  have hdbg : u.dbg = s.dbg := (congrArg Fixed.dbg hfixed :)
  have hufault : u.fault = none := (congrArg Fixed.fault hfixed :).trans hfault
  have hplain : Plain u := ⟨hcfg ▸ hvariant, hcfg ▸ hperiod, hcfg ▸ hbit, (exec_held i hexec).1⟩
  obtain ⟨w, hw, hlow, -⟩ := exec_costInRange i _
  cases hexec.symm.trans hw
  have hcall := (finishCall_of_plain hplain hufault).trans (closeCall_only _ _ _ _ _)
  obtain ⟨coverage, hfinish, hmem⟩ := finishStep_of_no_ula (s := finishCall false u)
    (by rw [hcall]; exact hplain.1) (by rw [hcall]; exact hufault)
  have hstep := stepRunsDecoded s i rest hfault hquiet hdecode
  rw [hexec, hdeferred, afterExec, hfinish, outcome] at hstep
  rw [hcall] at hstep hmem
  simp only [hufault] at hstep
  refine ⟨_, hstep, rfl, rfl, rfl, rfl, rfl, rfl, rfl, rfl, rfl, hcfg, hdbg, ?_, ?_, ?_⟩
  · exact congrArg (· + u.tIns) htotal
  · change s.tTotal + 4 ≤ u.tTotal + u.tIns
    omega
  · intro a
    rw [← hcoverage, ← hpc0]
    exact hmem a

end Sys2Proof.Machine
end

section
/-! PROOFS. The countdown law and the refresh-edge interrupt (60_exceptions.md R511, R512, R530 to R533). -/

namespace Sys2Proof.Machine

variable {s t u v w : State} {bus : Byte}

/-! ### Bookkeeping between the entries of a call -/

/-- From `s` to `t` no register but the pending requests has changed, and no byte of memory. -/
structure RequestsOnly (s t : State) : Prop where
  cfg : t.cfg = s.cfg
  slots : t.slots = s.slots
  mem : t.mem = s.mem
  cpu : ∃ deferred countdown, t.cpu = { s.cpu with intDeferred := deferred, intCountdown := countdown }

theorem RequestsOnly.trans (h : RequestsOnly s t) (h' : RequestsOnly t u) : RequestsOnly s u := by
  obtain ⟨_, _, hcpu⟩ := h.cpu
  obtain ⟨_, _, hcpu'⟩ := h'.cpu
  exact ⟨h'.cfg.trans h.cfg, h'.slots.trans h.slots, h'.mem.trans h.mem, _, _, by rw [hcpu', hcpu]⟩

theorem edgeDetect_requestsOnly (s : State) : RequestsOnly s (edgeDetect s) := by
  rw [edgeDetect_only]
  exact ⟨rfl, rfl, rfl, _, _, rfl⟩

theorem setCountdown_requestsOnly (c : Int) (s : State) : RequestsOnly s (setCountdown c s) :=
  ⟨rfl, rfl, rfl, _, _, rfl⟩

theorem closeCall_requestsOnly (idle : Bool) (tIns x y : Nat) (s : State) :
    RequestsOnly s (closeCall idle tIns x y s) := by
  rw [closeCall_only]
  exact ⟨rfl, rfl, rfl, _, _, rfl⟩

theorem RequestsOnly.notEntered (h : RequestsOnly s t) : NotEntered s t := by
  obtain ⟨_, _, hcpu⟩ := h.cpu
  refine ⟨(congrArg Cpu.f hcpu :), fun reg hreg => ?_, .of_eq h.cfg h.slots h.mem⟩
  cases reg with
  | intDeferred | intCountdown => exact absurd (by decide) hreg
  | _ => rw [Reg.kept, hcpu]

theorem RequestsOnly.acceptsMaskable (h : RequestsOnly s t) :
    t.cpu.iff1 = s.cpu.iff1 ∧ t.cpu.eiShadow = s.cpu.eiShadow ∧ t.cpu.im = s.cpu.im := by
  obtain ⟨_, _, hcpu⟩ := h.cpu
  rw [hcpu]
  exact ⟨rfl, rfl, rfl⟩

theorem RequestsOnly.accepts (h : RequestsOnly s t) (ha : Accepts bus s) : Accepts bus t := by
  obtain ⟨hiff1, heiShadow, him⟩ := h.acceptsMaskable
  rw [Accepts, hiff1, heiShadow, him]
  exact ha

theorem RequestsOnly.entryPushes (h : RequestsOnly s t) : entryPushes t = entryPushes s := by
  obtain ⟨_, _, hcpu⟩ := h.cpu
  simp only [Machine.entryPushes, returnAddress, hcpu]

/-- An entry from `t` does what it does from `s`, but for the pending requests. -/
theorem RequestsOnly.entryCpu (h : RequestsOnly s t) (nmi : Bool) (bus : Byte) :
    ∃ deferred countdown,
      entryCpu nmi bus t = { entryCpu nmi bus s with intDeferred := deferred, intCountdown := countdown } := by
  have hread (x : Word) : readAfter t (Machine.entryPushes t) x = readAfter s (Machine.entryPushes s) x := by
    rw [h.entryPushes]
    simp only [readAfter, peek_congr h.cfg h.slots h.mem, samePlace_congr h.cfg h.slots, writable_congr h.cfg h.slots]
  obtain ⟨_, _, hcpu⟩ := h.cpu
  simp only [Machine.entryCpu, entryTarget, hread, hcpu]
  exact ⟨_, _, rfl⟩

/-- An entry in which only the pending requests were changed before and after it. -/
theorem maskableTaken_of_entry (hw : Memory.wf t.cfg t.mem = true) (hbefore : RequestsOnly s t)
    (hafter : RequestsOnly (enterInterrupt false bus t).2 v) : MaskableTaken bus s v := by
  obtain ⟨-, hentry, hstored, -⟩ := enterInterrupt_spec hw false bus
  obtain ⟨_, _, hsame⟩ := hbefore.entryCpu false bus
  obtain ⟨_, _, hcpu⟩ := hafter.cpu
  rw [hentry, hsame] at hcpu
  rw [hbefore.entryPushes] at hstored
  refine ⟨?_, (congrArg Cpu.sp hcpu :), (congrArg Cpu.r hcpu :), (congrArg Cpu.iff1 hcpu :), (congrArg Cpu.iff2 hcpu :),
    (congrArg Cpu.halted hcpu :),
    (hstored.of_start hbefore.cfg hbefore.slots hbefore.mem).congr hafter.cfg hafter.slots hafter.mem,
    (congrArg Cpu.f hcpu :), fun reg hreg => ?_⟩
  · rw [hcpu]
    simp only [Machine.entryCpu, entryTarget, Bool.false_eq_true, if_false]
    cases s.cpu.im <;> rfl
  · cases reg with
    | pc | sp | r | iff1 | iff2 | halted | intDeferred | intCountdown => exact absurd (by decide) hreg
    | _ => simp [Reg.kept, hcpu, Machine.entryCpu]

/-! ### The countdown -/

/-- A request that is not accepted after the countdown ran out is lost; before that none is presented
(60_exceptions.md R512, R530). -/
theorem Ran.executeOne_notEntered (h : Ran s u) (hf : s.fault = none)
    (hdeferred : deferredEntry s.cpu.intDeferred u = (0, u)) {left : Int}
    (hentry : countdownEntry u.tIns (edgeDetect u) = (0, setCountdown left (edgeDetect u))) :
    ∃ t, executeOne s = .next t ∧ t.fault = none ∧ NotEntered u t ∧ t.tCall = u.tIns ∧ t.cpu.intCountdown = left := by
  have huf : u.fault = none := h.fault.trans hf
  have hedge : (edgeDetect u).fault = none := by rw [edgeDetect_only]; exact huf
  have hend := finishCall_of_entries hdeferred huf hentry hedge
  have honly := ((edgeDetect_requestsOnly u).trans (setCountdown_requestsOnly left _)).trans
    (closeCall_requestsOnly u.cpu.halted u.tIns 0 0 _)
  exact ⟨_, h.executeOne_eq.trans (congrArg _ hend), by rw [closeCall_fault]; exact hedge, honly.notEntered, rfl,
    by rw [closeCall_cpu]; rfl⟩

/-- An accepted request that the countdown presents is entered in the same call (60_exceptions.md R512, R533). -/
theorem Ran.executeOne_countdownTaken (h : Ran s u) (hw : Memory.wf s.cfg s.mem = true) (hf : s.fault = none)
    (hon : s.cfg.intPeriodT ≠ 0) (hdeferred : s.cpu.intDeferred = false) (hleft : s.cpu.intCountdown - u.tIns ≤ 0)
    (haccepts : Accepts s.cfg.intBusByte u) :
    ∃ t, executeOne s = .next t ∧ t.fault = none ∧ MaskableTaken s.cfg.intBusByte u t ∧
      t.tCall = u.tIns + maskableCost u.cpu.im ∧
      t.cpu.intCountdown = s.cpu.intCountdown - u.tIns + s.cfg.intPeriodT - maskableCost u.cpu.im := by
  have hedge := edgeDetect_requestsOnly u
  have hcfg : (edgeDetect u).cfg = s.cfg := hedge.cfg.trans h.cfg
  have hcountdown : (edgeDetect u).cpu.intCountdown = s.cpu.intCountdown := by rw [edgeDetect_only]; exact h.held.2
  have hedgeFault : (edgeDetect u).fault = none := by rw [edgeDetect_only]; exact h.fault.trans hf
  rw [← hcfg] at hon haccepts ⊢
  rw [← hcountdown] at hleft ⊢
  obtain ⟨x, v, hentry, hc⟩ := countdownEntry_accepted hon hleft (hedge.accepts haccepts)
  set w := setCountdown ((edgeDetect u).cpu.intCountdown - u.tIns + (edgeDetect u).cfg.intPeriodT) (edgeDetect u)
  have hbefore : RequestsOnly u w := hedge.trans (setCountdown_requestsOnly _ _)
  have hww : Memory.wf w.cfg w.mem = true := by rw [hbefore.cfg, hbefore.mem]; exact h.memory_wf hw
  obtain ⟨hcost, hcpu, -, -, hothers⟩ := enterInterrupt_spec hww false (edgeDetect u).cfg.intBusByte
  have htaken (idle : Bool) := maskableTaken_of_entry (bus := (edgeDetect u).cfg.intBusByte) hww hbefore
    ((setCountdown_requestsOnly (v.cpu.intCountdown - x) _).trans (closeCall_requestsOnly idle u.tIns 0 x _))
  rw [hentry] at hcost hcpu hothers htaken
  have hvfault : v.fault = none := hothers.fault.trans hedgeFault
  have hend := finishCall_of_entries (fire := false) (deferredEntry_false u) (h.fault.trans hf) hc hvfault
  have hx : x = maskableCost u.cpu.im := by rw [← hbefore.acceptsMaskable.2.2]; exact hcost
  have hv : v.cpu.intCountdown = (edgeDetect u).cpu.intCountdown - u.tIns + (edgeDetect u).cfg.intPeriodT :=
    (congrArg Cpu.intCountdown hcpu :)
  refine ⟨_, h.executeOne_eq.trans (by rw [hdeferred, hend]), by rw [closeCall_fault]; exact hvfault, htaken _, ?_, ?_⟩
  · rw [closeCall_tCall, hx, Nat.add_zero]
  · rw [closeCall_cpu, setCountdown_cpu_intCountdown, hv, hx]

/-! ### The law over calls -/

/-- The countdown goes down by the T-states presented and those of its own entry, and up by a period where it runs out
(60_exceptions.md R533). -/
theorem countdownEntry_law {n : Nat} (hon : s.cfg.intPeriodT ≠ 0) (hf : (countdownEntry n s).2.fault = none) :
    let r := countdownEntry n s
    ∃ expiries ≤ 1, (n + r.1 : Int) + r.2.cpu.intCountdown =
      s.cpu.intCountdown + s.cfg.intPeriodT * (expiries : Nat) := by
  obtain ⟨hoff, heq⟩ | ⟨-, -, heq⟩ | ⟨-, -, u, x, v, rfl, hentry, heq⟩ := countdownEntry_cases n s <;>
    rw [heq] at hf ⊢
  · exact absurd hoff hon
  · refine ⟨0, Nat.zero_le 1, ?_⟩
    simp only [setCountdown_cpu_intCountdown]
    omega
  · refine ⟨1, Nat.le_refl 1, ?_⟩
    have hheld := (generateInterrupt_fixed _ _ (generateInterrupt_fault (by rw [hentry]; exact hf))).2.2
    rw [hentry] at hheld
    simp only [setCountdown_cpu_intCountdown] at hheld ⊢
    omega

/-- One call of `ExecuteOne` moves the countdown by the T-states it returns, and by one period where it runs out. -/
theorem executeOne_countdown (hon : s.cfg.intPeriodT ≠ 0) (h : executeOne s = .next t) (hf : t.fault = none) :
    ∃ expiries ≤ 1,
      (t.tCall : Int) + t.cpu.intCountdown = s.cpu.intCountdown + s.cfg.intPeriodT * (expiries : Nat) := by
  obtain ⟨u, hran, rfl⟩ := executeOne_of_no_fault h hf
  obtain ⟨x, w, y, v, hd, hw, hc, hv, heq⟩ := finishCall_closed hf
  obtain ⟨hfixed, -, -, hheld⟩ := deferredEntry_kept (by rw [hd]; exact hw)
  rw [hd] at hfixed hheld
  have hcfg : (edgeDetect w).cfg = s.cfg := by
    rw [edgeDetect_only]
    exact (congrArg Fixed.cfg hfixed :).trans hran.cfg
  have hcountdown : (edgeDetect w).cpu.intCountdown = s.cpu.intCountdown := by
    rw [edgeDetect_only]
    exact hheld.trans hran.held.2
  have hlaw := countdownEntry_law (hcfg ▸ hon) (by rw [hc]; exact hv)
  rw [hc, hcfg, hcountdown] at hlaw
  rw [heq, closeCall_tCall, closeCall_cpu]
  exact_mod_cast hlaw

theorem runCalls_countdown {n total : Nat} (hinv : Inv s) (hon : s.cfg.intPeriodT ≠ 0)
    (h : runCalls n s = some (t, total)) :
    Inv t ∧ t.cfg = s.cfg ∧
      ∃ expiries ≤ n, (total : Int) + t.cpu.intCountdown =
        s.cpu.intCountdown + s.cfg.intPeriodT * (expiries : Nat) := by
  induction n generalizing s total with
  | zero =>
    cases h
    exact ⟨hinv, rfl, 0, Nat.le_refl 0, by simp⟩
  | succ n ih =>
    simp only [runCalls] at h
    split at h
    · next w hcall =>
      split at h
      · cases h
      · next hwf =>
        have hwf : w.fault = none := by simpa using hwf
        obtain ⟨r, hrun, heq⟩ := Option.map_eq_some_iff.mp h
        obtain ⟨rfl, rfl⟩ := Prod.mk.inj heq
        have hcfg : w.cfg = s.cfg := (congrArg Fixed.cfg (executeOne_fixed hcall hwf) :)
        obtain ⟨first, hfirst, hlaw⟩ := executeOne_countdown hon hcall hwf
        obtain ⟨hinv', hcfg', later, hlater, hlaw'⟩ :=
          ih (total := r.2) (inv_stepClosed.toCallClosed.executeOne hinv hcall hwf) (hcfg ▸ hon) hrun
        rw [hcfg] at hcfg' hlaw'
        refine ⟨hinv', hcfg', first + later, by omega, ?_⟩
        push_cast
        rw [Int.mul_add]
        omega
    · cases h
    · cases h

/-- Settles O52: the law for one call adds up over any number of them; the countdown stays in its range because the
invariant is kept. -/
theorem countdownLaw : Obligations.CountdownLaw := by
  refine ⟨fun s t n total hinv _ hon hrun => ?_, fun s u hinv hf hon hdeferred hran => ?_,
    fun s t => (ulaStep_held t s).2⟩
  · obtain ⟨hinv', hcfg, hlaw⟩ := runCalls_countdown hinv hon hrun
    have hrange := hinv'.countdown
    rw [hcfg] at hrange
    exact ⟨hlaw, hrange.resolve_left hon⟩
  · have hedge := edgeDetect_requestsOnly u
    have hcfg : (edgeDetect u).cfg = s.cfg := hedge.cfg.trans hran.cfg
    have hcountdown : (edgeDetect u).cpu.intCountdown = s.cpu.intCountdown := by
      rw [edgeDetect_only]
      exact hran.held.2
    have hnone : deferredEntry s.cpu.intDeferred u = (0, u) := by rw [hdeferred]; rfl
    refine ⟨fun hleft => ?_, fun hleft haccepts => ?_, fun hleft hrefused => ?_⟩
    · refine hran.executeOne_notEntered hf hnone ?_
      rw [← hcountdown] at hleft ⊢
      exact countdownEntry_running (hcfg ▸ hon) hleft
    · exact hran.executeOne_countdownTaken hinv.memory hf hon hdeferred hleft haccepts
    · refine hran.executeOne_notEntered hf hnone ?_
      obtain ⟨hiff1, heiShadow, -⟩ := hedge.acceptsMaskable
      have hafter : countdownAfter u.tIns (edgeDetect u) = s.cpu.intCountdown - u.tIns + s.cfg.intPeriodT := by
        simp only [countdownAfter, hcfg, hcountdown, hon, hleft, if_true, if_false]
      rw [← hafter]
      exact countdownEntry_refused _ (by rwa [hiff1, heiShadow])

/-! ### The deferred request -/

/-- No request is pending, or the one pending is not accepted: nothing is entered (60_exceptions.md R514, R531). -/
theorem deferredEntry_refused {fire : Bool} (h : ¬ (fire = true ∧ s.cpu.iff1 = true ∧ s.cpu.eiShadow = false)) :
    deferredEntry fire s = (0, s) := by
  cases fire with
  | false => rfl
  | true =>
    refine generateInterrupt_refused ?_
    cases hiff1 : s.cpu.iff1
    · exact .inl rfl
    · exact .inr (by simpa [hiff1] using h)

theorem deferredEntry_accepted (h : Accepts s.cfg.intBusByte s) :
    deferredEntry true s = enterInterrupt false s.cfg.intBusByte s := generateInterrupt_accepted h

/-- An accepted deferred request is entered; it leaves interrupts disabled, so the countdown enters none
(60_exceptions.md R531). -/
theorem Ran.executeOne_deferredTaken (h : Ran s u) (hw : Memory.wf s.cfg s.mem = true) (hf : s.fault = none)
    (hfire : s.cpu.intDeferred = true) (haccepts : Accepts s.cfg.intBusByte u) :
    ∃ t, executeOne s = .next t ∧ t.fault = none ∧ MaskableTaken s.cfg.intBusByte u t ∧
      t.tCall = u.tIns + maskableCost u.cpu.im := by
  rw [← h.cfg] at haccepts ⊢
  have hwu := h.memory_wf hw
  have hself : RequestsOnly u u := ⟨rfl, rfl, rfl, _, _, rfl⟩
  obtain ⟨hcost, -, -, -, hothers⟩ := enterInterrupt_spec hwu false u.cfg.intBusByte
  have hiff1 := enterInterrupt_iff1 false u.cfg.intBusByte u
  have htaken {v : State} := maskableTaken_of_entry (v := v) (bus := u.cfg.intBusByte) hwu hself
  have hd := deferredEntry_accepted haccepts
  generalize enterInterrupt false u.cfg.intBusByte u = entry at hcost hothers hiff1 htaken hd
  obtain ⟨x, w⟩ := entry
  have hwfault : w.fault = none := hothers.fault.trans (h.fault.trans hf)
  have hedge := edgeDetect_requestsOnly w
  have hc := countdownEntry_refused (s := edgeDetect w) (u.tIns + x) (.inl (hedge.acceptsMaskable.1.trans hiff1))
  have hend := finishCall_of_entries hd hwfault hc (by rw [edgeDetect_only]; exact hwfault)
  refine ⟨_, h.executeOne_eq.trans (by rw [hfire, hend]), ?_,
    htaken ((hedge.trans (setCountdown_requestsOnly _ _)).trans (closeCall_requestsOnly _ _ _ _ _)), ?_⟩
  · rw [closeCall_fault, edgeDetect_only]
    exact hwfault
  · rw [closeCall_tCall, Nat.add_zero, show x = maskableCost u.cpu.im from hcost]

/-- In mode 0 the fault of the deferred entry ends the call (60_exceptions.md R500, R502; log 10). -/
theorem Ran.executeOne_deferredFault (h : Ran s u) (hfire : s.cpu.intDeferred = true) (hiff1 : u.cpu.iff1 = true)
    (heiShadow : u.cpu.eiShadow = false) (him : u.cpu.im = .im0) (hbus : s.cfg.intBusByte &&& 0xC7#8 ≠ 0xC7#8) :
    executeOne s = .next { u with fault := some (.im0Unsupported s.cfg.intBusByte) } := by
  rw [← h.cfg] at hbus ⊢
  have hd : deferredEntry true u = (0, { u with fault := some (.im0Unsupported u.cfg.intBusByte) }) :=
    generateInterrupt_unsupported hiff1 heiShadow him hbus
  rw [h.executeOne_eq, hfire, finishCall, hd]
  rfl

/-! ### The edge detector -/

/-- A call without a fault ends with the sample and the request that the edge detector took after the deferred entry
(60_exceptions.md R532). -/
theorem finishCall_sample {fire : Bool} (hf : (finishCall fire s).fault = none) : let w := (deferredEntry fire s).2
    w.fault = none ∧ (finishCall fire s).ula.prevR = (edgeDetect w).ula.prevR ∧
      (finishCall fire s).cpu.intDeferred = (edgeDetect w).cpu.intDeferred := by
  obtain ⟨x, w, y, v, hd, hw, hc, hv, heq⟩ := finishCall_closed hf
  obtain ⟨-, hula, hdeferred⟩ := countdownEntry_kept (by rw [hc]; exact hv)
  rw [hc] at hula hdeferred
  rw [hd, heq, closeCall_ula, closeCall_cpu]
  exact ⟨hw, congrArg Ula.prevR hula, hdeferred⟩

theorem edgeDetect_of_bit {bit : Nat} (h : s.cfg.rIntBit = some bit) : (edgeDetect s).ula.prevR = s.cpu.r ∧
    (edgeDetect s).cpu.intDeferred =
      (s.cpu.intDeferred || (s.ula.prevR.getLsbD bit && !s.cpu.r.getLsbD bit)) := by
  simp [edgeDetect, h]

theorem edgeDetect_of_no_bit (h : s.cfg.rIntBit = none) : edgeDetect s = s := by simp [edgeDetect, h]

/-- `R` after the deferred entry of a call that makes no fault: one step on where the entry was made
(60_exceptions.md R520). -/
theorem deferredEntry_r {fire : Bool} (hw : Memory.wf s.cfg s.mem = true) (hf : (deferredEntry fire s).2.fault = none) :
    (deferredEntry fire s).2.cpu.r =
      if fire = true ∧ s.cpu.iff1 = true ∧ s.cpu.eiShadow = false then nextR s.cpu.r else s.cpu.r := by
  split
  · next htaken =>
    obtain ⟨rfl, hiff1, heiShadow⟩ := htaken
    by_cases him : s.cpu.im = .im0 → s.cfg.intBusByte &&& 0xC7#8 = 0xC7#8
    · rw [deferredEntry_accepted ⟨hiff1, heiShadow, him⟩, (enterInterrupt_spec hw false s.cfg.intBusByte).2.1]
      rfl
    · obtain ⟨him0, hbus⟩ := Classical.not_imp.mp him
      rw [deferredEntry_true, generateInterrupt_unsupported hiff1 heiShadow him0 hbus] at hf
      exact nomatch hf
  · next hnot => rw [deferredEntry_refused hnot]

/-- Settles O53: the entry, the fault and the dropped request are the three ends of the deferred entry; the sample and
the request after the call are those of the edge detector. -/
theorem refreshEdge : Obligations.RefreshEdge := by
  intro s u hf hw hran bus fire taken
  refine ⟨fun hfire haccepts => hran.executeOne_deferredTaken hw hf hfire haccepts,
    fun ⟨hfire, hiff1, heiShadow⟩ him hbus => hran.executeOne_deferredFault hfire hiff1 heiShadow him hbus,
    fun hnot hoff => ?_, fun t ht htf => ?_⟩
  · have hcfg : (edgeDetect u).cfg = s.cfg := (edgeDetect_requestsOnly u).cfg.trans hran.cfg
    obtain ⟨t, hcall, htf, hnone, htCall, -⟩ := hran.executeOne_notEntered (left := (edgeDetect u).cpu.intCountdown) hf
      (deferredEntry_refused hnot) (countdownEntry_off (hcfg ▸ hoff))
    exact ⟨t, hcall, htf, hnone, htCall⟩
  · cases hran.executeOne_eq.symm.trans ht
    obtain ⟨hwf, hprevR, hdeferred⟩ := finishCall_sample htf
    obtain ⟨hfixed, hula, hheld, -⟩ := deferredEntry_kept hwf
    have hcfg : (deferredEntry fire u).2.cfg = s.cfg := (congrArg Fixed.cfg hfixed :).trans hran.cfg
    have hbefore : (deferredEntry fire u).2.ula.prevR = s.ula.prevR :=
      (congrArg Ula.prevR hula).trans (congrArg Ula.prevR hran.ulaCore :)
    rw [hprevR, hdeferred]
    refine ⟨fun bit r hbit htaken hnot => ?_, fun hbit => ?_⟩
    · have hr : (deferredEntry fire u).2.cpu.r = r := by
        rw [deferredEntry_r (hran.memory_wf hw) hwf]
        split
        · exact (htaken ‹_›).symm
        · exact (hnot ‹_›).symm
      obtain ⟨hsample, hrequest⟩ := edgeDetect_of_bit (hcfg ▸ hbit)
      rw [hr] at hsample hrequest
      rw [hsample, hrequest, hheld, hran.held.1, hbefore]
      exact ⟨rfl, rfl⟩
    · rw [edgeDetect_of_no_bit (hcfg ▸ hbit), hheld]
      exact ⟨hbefore, hran.held.1⟩

end Sys2Proof.Machine
end

section
/-! PROOFS. What debugging records cannot reach a program (60_exceptions.md R555, R578, R590). -/

namespace Sys2Proof.Machine

variable {P : Prop} {s s' t t' : State} {i : Instr}

/-! ### States alike to the program -/

/-- What a program does not see of a state: accounting, debugging records, notifications, the failure reported, and the
ULA, of which `SameUla` says what is seen. -/
structure Hidden where
  tIns     : Nat
  tCall    : Nat
  tTotal   : Nat
  load     : Load
  watch    : Watch
  activity : List (Nat × Marks)
  coverage : List Word
  ula      : Ula
  dbg      : Debug
  notices  : List Notice
  failure  : Option Failure

/-- The hidden items of a state. -/
def hidden (s : State) : Hidden where
  tIns := s.tIns
  tCall := s.tCall
  tTotal := s.tTotal
  load := s.load
  watch := s.watch
  activity := s.activity
  coverage := s.coverage
  ula := s.ula
  dbg := s.dbg
  notices := s.notices
  failure := s.failure

/-- The state with other hidden items. -/
def State.withHidden (s : State) (x : Hidden) : State :=
  { s with
    tIns := x.tIns, tCall := x.tCall, tTotal := x.tTotal, load := x.load, watch := x.watch, activity := x.activity
    coverage := x.coverage, ula := x.ula, dbg := x.dbg, notices := x.notices, failure := x.failure }

/-- The two ULAs are one but for the colour plane, and in that too when `P`. -/
def SameUla (P : Prop) (u u' : Ula) : Prop := u'.withoutColors = u.withoutColors ∧ (P → u' = u)

/-- The two states differ in hidden items alone. When `P`, they agree on the whole ULA, and no colour byte depends on
the machine state. -/
structure Alike (P : Prop) (s s' : State) : Prop where
  seen : s' = s.withHidden (hidden s')
  ula : SameUla P s.ula s'.ula
  colors : P → ColorsFixed s.cfg

/-- Both outcomes are next states, alike to the program and at one cost. -/
def AlikeNext (P : Prop) (r r' : Result) : Prop :=
  ∃ t t', r = .next t ∧ r' = .next t' ∧ Alike P t t' ∧ t'.tIns = t.tIns

/-- Both answers are one value and two states alike to the program. -/
def AlikeWith {α : Type} (P : Prop) (r r' : α × State) : Prop := r'.1 = r.1 ∧ Alike P r.2 r'.2

/-! ### What an instruction is made of -/

theorem Alike.exists_hidden (h : Alike P s s') : ∃ x, s' = s.withHidden x := ⟨hidden s', h.seen⟩


namespace Alike

variable (h : Alike P s s')
include h

theorem cpu : s'.cpu = s.cpu := (congrArg State.cpu h.seen :)

theorem cfg : s'.cfg = s.cfg := (congrArg State.cfg h.seen :)

theorem pc0 : s'.pc0 = s.pc0 := (congrArg State.pc0 h.seen :)

theorem bc : bc s' = bc s := by rw [Machine.bc, h.cpu, Machine.bc]

theorem hl : hl s' = hl s := by rw [Machine.hl, h.cpu, Machine.hl]

theorem regs {c c' : Cpu} (hc : c' = c) : Alike P { s with cpu := c } { s' with cpu := c' } := by
  obtain ⟨x, rfl⟩ := h.exists_hidden
  subst hc
  exact ⟨rfl, h.ula, h.colors⟩

theorem setPC {v v' : Word} (hv : v' = v) : Alike P (setPC v s) (setPC v' s') := h.regs (by rw [h.cpu, hv])
theorem setSP {v v' : Word} (hv : v' = v) : Alike P (setSP v s) (setSP v' s') := h.regs (by rw [h.cpu, hv])
theorem setBC {v v' : Word} (hv : v' = v) : Alike P (setBC v s) (setBC v' s') := h.regs (by rw [h.cpu, hv])
theorem setDE {v v' : Word} (hv : v' = v) : Alike P (setDE v s) (setDE v' s') := h.regs (by rw [h.cpu, hv])
theorem setHL {v v' : Word} (hv : v' = v) : Alike P (setHL v s) (setHL v' s') := h.regs (by rw [h.cpu, hv])
theorem setAF {v v' : Word} (hv : v' = v) : Alike P (setAF v s) (setAF v' s') := h.regs (by rw [h.cpu, hv])
theorem setIX {v v' : Word} (hv : v' = v) : Alike P (setIX v s) (setIX v' s') := h.regs (by rw [h.cpu, hv])
theorem setIY {v v' : Word} (hv : v' = v) : Alike P (setIY v s) (setIY v' s') := h.regs (by rw [h.cpu, hv])
theorem setA {v v' : Byte} (hv : v' = v) : Alike P (setA v s) (setA v' s') := h.regs (by rw [h.cpu, hv])
theorem setB {v v' : Byte} (hv : v' = v) : Alike P (setB v s) (setB v' s') := h.regs (by rw [h.cpu, hv])
theorem incR : Alike P (incR s) (incR s') := h.regs (by rw [h.cpu])

theorem setR8 (g : Reg8) {v v' : Byte} (hv : v' = v) : Alike P (setR8 g v s) (setR8 g v' s') := by
  cases g <;> exact h.regs (by rw [h.cpu, hv])

theorem setR16 (g : Reg16) {v v' : Word} (hv : v' = v) : Alike P (setR16 g v s) (setR16 g v' s') := by
  cases g
  · exact h.setBC hv
  · exact h.setDE hv
  · exact h.setHL hv
  · exact h.setSP hv

theorem setR16AF (g : Reg16AF) {v v' : Word} (hv : v' = v) : Alike P (setR16AF g v s) (setR16AF g v' s') := by
  cases g
  · exact h.setBC hv
  · exact h.setDE hv
  · exact h.setHL hv
  · exact h.setAF hv

theorem setFlags {fs fs' : FlagSet} (hfs : fs' = fs) : Alike P (setFlags fs s) (setFlags fs' s') := by
  obtain ⟨x, rfl⟩ := h.exists_hidden
  subst hfs
  exact ⟨rfl, h.ula, h.colors⟩

theorem note (k : AccessKind) {a a' : Word} (ha : a' = a) : Alike P (noteAccess k a s) (noteAccess k a' s') := by
  obtain ⟨x, rfl⟩ := h.exists_hidden
  subst ha
  exact ⟨rfl, h.ula, h.colors⟩

theorem read8 {a a' : Word} (ha : a' = a) : Alike P (read8 a s).2 (read8 a' s').2 := h.note .read ha

theorem write8 {a a' : Word} {v v' : Byte} (ha : a' = a) (hv : v' = v) : Alike P (write8 a v s) (write8 a' v' s') := by
  obtain ⟨x, rfl⟩ := h.exists_hidden
  subst ha hv
  exact ⟨rfl, h.ula, h.colors⟩

@[simp] theorem peek (a : Word) : peek s' a = peek s a := by
  obtain ⟨x, rfl⟩ := h.exists_hidden
  rfl

theorem memWrite16 {a a' v v' : Word} (ha : a' = a) (hv : v' = v) :
    Alike P (memWrite16 a v s) (memWrite16 a' v' s') := by
  subst ha hv
  exact (h.write8 rfl rfl).write8 rfl rfl

theorem pushWord {v v' : Word} (hv : v' = v) : Alike P (pushWord v s) (pushWord v' s') := by
  subst hv
  exact (((h.setSP (by rw [h.cpu])).write8 (by simp [h.cpu]) rfl).setSP (by simp [h.cpu])).write8 (by simp [h.cpu]) rfl

theorem popWord : AlikeWith P (popWord s) (popWord s') := by
  obtain ⟨x, rfl⟩ := h.exists_hidden
  exact ⟨rfl, (((h.read8 rfl).setSP rfl).read8 rfl).setSP rfl⟩

theorem exchangeTop {v v' : Word} (hv : v' = v) : AlikeWith P (exchangeTop v s) (exchangeTop v' s') := by
  obtain ⟨x, rfl⟩ := h.exists_hidden
  subst hv
  exact ⟨rfl, (((h.read8 rfl).read8 rfl).write8 rfl rfl).write8 rfl rfl⟩

theorem modifyReg (g : Reg8) {f f' : Byte → Byte × FlagSet} (hf : f' = f) :
    Alike P (modifyReg g f s) (modifyReg g f' s') := by
  obtain ⟨x, rfl⟩ := h.exists_hidden
  subst hf
  exact (h.setR8 g rfl).setFlags rfl

theorem modifyAt {a a' : Word} {f f' : Byte → Byte × FlagSet} (ha : a' = a) (hf : f' = f) :
    Alike P (modifyAt a f s) (modifyAt a' f' s') := by
  obtain ⟨x, rfl⟩ := h.exists_hidden
  subst ha hf
  exact ((h.read8 rfl).write8 rfl rfl).setFlags rfl

theorem rewriteAt {a a' : Word} (ha : a' = a) {f : Byte → Byte} : Alike P (rewriteAt a f s) (rewriteAt a' f s') := by
  obtain ⟨x, rfl⟩ := h.exists_hidden
  subst ha
  exact (h.read8 rfl).write8 rfl rfl

theorem rotateA {f f' : Byte → Byte × Bool} (hf : f' = f) : Alike P (rotateA f s) (rotateA f' s') := by
  obtain ⟨x, rfl⟩ := h.exists_hidden
  subst hf
  exact (h.setA rfl).setFlags rfl

theorem addIn {v v' : Byte} (hv : v' = v) : Alike P (addIn v s) (addIn v' s') :=
  (h.setA (by rw [h.cpu, hv])).setFlags (by rw [h.cpu, hv])
theorem adcIn {v v' : Byte} (hv : v' = v) : Alike P (adcIn v s) (adcIn v' s') :=
  (h.setA (by rw [h.cpu, hv])).setFlags (by rw [h.cpu, hv])
theorem subIn {v v' : Byte} (hv : v' = v) : Alike P (subIn v s) (subIn v' s') :=
  (h.setA (by rw [h.cpu, hv])).setFlags (by rw [h.cpu, hv])
theorem sbcIn {v v' : Byte} (hv : v' = v) : Alike P (sbcIn v s) (sbcIn v' s') :=
  (h.setA (by rw [h.cpu, hv])).setFlags (by rw [h.cpu, hv])
theorem andIn {v v' : Byte} (hv : v' = v) : Alike P (andIn v s) (andIn v' s') :=
  (h.setA (by rw [h.cpu, hv])).setFlags (by rw [h.cpu, hv])
theorem orIn {v v' : Byte} (hv : v' = v) : Alike P (orIn v s) (orIn v' s') :=
  (h.setA (by rw [h.cpu, hv])).setFlags (by rw [h.cpu, hv])
theorem xorIn {v v' : Byte} (hv : v' = v) : Alike P (xorIn v s) (xorIn v' s') :=
  (h.setA (by rw [h.cpu, hv])).setFlags (by rw [h.cpu, hv])
theorem cpIn {v v' : Byte} (hv : v' = v) : Alike P (cpIn v s) (cpIn v' s') := h.setFlags (by rw [h.cpu, hv])

theorem blockMove (d : Word) : Alike P (blockMove d s) (blockMove d s') := by
  obtain ⟨x, rfl⟩ := h.exists_hidden
  exact (((((h.read8 rfl).write8 rfl rfl).setHL rfl).setDE rfl).setBC rfl).setFlags rfl

theorem blockSearch (d : Word) : Alike P (blockSearch d s) (blockSearch d s') := by
  obtain ⟨x, rfl⟩ := h.exists_hidden
  exact (((h.read8 rfl).setHL rfl).setBC rfl).setFlags rfl

theorem callTo {v v' : Word} (hv : v' = v) : Alike P (callTo v s) (callTo v' s') :=
  (h.pushWord (by rw [h.cpu])).setPC hv

theorem returnFrom : Alike P (returnFrom s) (returnFrom s') := h.popWord.2.setPC h.popWord.1

theorem returnFromNmi : Alike P (returnFromNmi s) (returnFromNmi s') :=
  h.returnFrom.regs (by rw [h.returnFrom.cpu])

end Alike

/-! ### Ports -/

/-- An update of the ULA that reads and writes no colour keeps what the two have in common. -/
theorem SameUla.map {u u' : Ula} (h : SameUla P u u') {f g : Ula → Ula}
    (hf : ∀ v, (f v).withoutColors = g v.withoutColors) : SameUla P (f u) (f u') :=
  ⟨by rw [hf, hf, h.1], fun hp => congrArg f (h.2 hp)⟩

theorem Alike.ulaPortEvent (h : Alike P s s') (dir : PortDir) (port : Word) (v : Option Byte) :
    Alike P (ulaPortEvent dir port v s) (ulaPortEvent dir port v s') := by
  obtain ⟨x, rfl⟩ := h.exists_hidden
  exact ⟨rfl, h.ula.map (f := fun u => { u with
    syncReq := (s.cfg.portEventsOf dir port v u.syncReq u.nmiOn).1
    nmiOn := (s.cfg.portEventsOf dir port v u.syncReq u.nmiOn).2 }) (g := fun u => { u with
    syncReq := (s.cfg.portEventsOf dir port v u.syncReq u.nmiOn).1
    nmiOn := (s.cfg.portEventsOf dir port v u.syncReq u.nmiOn).2 }) fun _ => rfl, h.colors⟩

theorem SameUla.signals {u u' : Ula} (h : SameUla P u u') : u'.syncReq = u.syncReq ∧ u'.nmiOn = u.nmiOn :=
  ⟨(congrArg Ula.syncReq h.1 :), (congrArg Ula.nmiOn h.1 :)⟩

theorem runRead_alike (h : Alike P s s') (port : Word) (hd : ReadHandler) :
    AlikeWith P (runRead port s hd) (runRead port s' hd) := by
  cases hd with
  | constant v => exact ⟨rfl, h⟩
  | ula drives =>
    have ht := h.ulaPortEvent .read port none
    obtain ⟨hsync, hnmi⟩ := h.ula.signals
    obtain ⟨gsync, gnmi⟩ := ht.ula.signals
    refine ⟨?_, ht⟩
    obtain ⟨x, rfl⟩ := h.exists_hidden
    simp only [runRead, hsync, hnmi, gsync, gnmi]
    rfl
  | device id =>
    obtain ⟨x, rfl⟩ := h.exists_hidden
    exact ⟨rfl, rfl, h.ula, h.colors⟩

theorem readGenerics_alike (h : Alike P s s') (port : Word) (hs : List ReadHandler) (acc : Byte) :
    AlikeWith P (readGenerics port hs acc s) (readGenerics port hs acc s') := by
  induction hs generalizing acc s s' with
  | nil => exact ⟨rfl, h⟩
  | cons hd rest ih =>
    obtain ⟨hv, ht⟩ := runRead_alike h port hd
    simp only [readGenerics, hv, ht.cfg]
    exact ih ht _

theorem portRead_alike (h : Alike P s s') (port : Word) : AlikeWith P (portRead port s) (portRead port s') := by
  simp only [portRead, h.cfg]
  split
  · exact runRead_alike h port _
  · exact readGenerics_alike h port _ _

theorem applyBankRule_alike (h : Alike P s s') (port : Word) (v : Byte) :
    Alike P (applyBankRule port v s) (applyBankRule port v s') := by
  obtain ⟨x, rfl⟩ := h.exists_hidden
  have hcfg : (s.withHidden x).cfg = s.cfg := rfl
  have hslots : (s.withHidden x).slots = s.slots := rfl
  have hscript : (s.withHidden x).script = s.script := rfl
  simp only [applyBankRule, hcfg, hslots, hscript]
  repeat' split
  all_goals exact ⟨rfl, h.ula, h.colors⟩

theorem runWrite_alike (h : Alike P s s') (port : Word) (v : Byte) (hd : WriteHandler) :
    Alike P (runWrite port v s hd) (runWrite port v s' hd) := by
  cases hd with
  | record =>
    obtain ⟨x, rfl⟩ := h.exists_hidden
    exact ⟨rfl, h.ula, h.colors⟩
  | ula => exact h.ulaPortEvent .write port (some v)
  | bankRule => exact applyBankRule_alike h port v
  | device id =>
    obtain ⟨x, rfl⟩ := h.exists_hidden
    have hperiph : (s.withHidden x).periph = s.periph := rfl
    simp only [runWrite, hperiph]
    split <;> exact ⟨rfl, h.ula, h.colors⟩

theorem writeGenerics_alike (h : Alike P s s') (port : Word) (v : Byte) (hs : List WriteHandler) :
    Alike P (writeGenerics port v hs s) (writeGenerics port v hs s') := by
  induction hs generalizing s s' with
  | nil => exact h
  | cons hd rest ih => exact ih (runWrite_alike h port v hd)

theorem portWrite_alike (h : Alike P s s') (port : Word) (v : Byte) :
    Alike P (portWrite port v s) (portWrite port v s') := by
  simp only [portWrite, h.cfg]
  split
  · have hw := runWrite_alike h port v ‹Word × WriteHandler›.2
    rw [hw.cfg]
    exact writeGenerics_alike hw port v _
  · rw [h.cfg]
    exact writeGenerics_alike h port v _

/-! ### Instructions -/

theorem done_alike (h : Alike P s s') {n n' : Nat} (hn : n' = n) : AlikeNext P (done n s) (done n' s') := by
  subst hn
  refine ⟨_, _, rfl, rfl, ⟨?_, h.ula, h.colors⟩, rfl⟩
  obtain ⟨x, rfl⟩ := h.exists_hidden
  rfl

/-- Where both states take the same branch, the outcomes of the branches decide. -/
theorem AlikeNext.ite {c c' : Bool} (hc : c' = c) {r r' q q' : Result} (hr : AlikeNext P r r')
    (hq : AlikeNext P q q') : AlikeNext P (if c then r else q) (if c' then r' else q') := by
  subst hc
  cases c'
  · exact hq
  · exact hr

theorem repeatWhile_alike (h : Alike P s s') {more more' : Bool} (hm : more' = more) :
    AlikeNext P (repeatWhile more s) (repeatWhile more' s') :=
  .ite hm (done_alike (h.setPC h.pc0) rfl) (done_alike h rfl)

theorem repeatWhileB_alike (h : Alike P s s') : AlikeNext P (repeatWhileB s) (repeatWhileB s') :=
  .ite (by rw [h.cpu]) (done_alike (h.setPC h.pc0) rfl) (done_alike h rfl)

theorem Alike.blockInput (h : Alike P s s') (d : Word) : Alike P (blockInput d s) (blockInput d s') := by
  obtain ⟨hv, hu⟩ := portRead_alike h (Machine.bc s)
  have hport : Machine.bc s' = Machine.bc s := h.bc
  simp only [Machine.blockInput, hport]
  have hb := (hu.write8 hu.hl hv).setB (congrArg (·.b - 1#8) hu.cpu)
  have hhl := hb.setHL (congrArg (· + d) hb.hl)
  exact hhl.setFlags (congrArg (blockIoFlags ·.b) hhl.cpu)

theorem Alike.blockOutput (h : Alike P s s') (d : Word) : Alike P (blockOutput d s) (blockOutput d s') := by
  obtain ⟨x, rfl⟩ := h.exists_hidden
  have hu := portWrite_alike ((h.read8 (a := Machine.hl s) rfl).setB (v := s.cpu.b - 1#8) rfl)
    (wordOf (s.cpu.b - 1#8) s.cpu.c) (Machine.peek s (Machine.hl s))
  have hhl := hu.setHL (congrArg (· + d) hu.hl)
  exact hhl.setFlags (congrArg (blockIoFlags ·.b) hhl.cpu)

/-- An instruction computes with what the program sees: its outcomes from two states alike to the program are alike. -/
theorem exec_alike (h : Alike P s s') (i : Instr) : AlikeNext P (exec i s) (exec i s') := by
  obtain ⟨x, rfl⟩ := h.exists_hidden
  cases i
  case exAFAF | exx | ldIA | ldRefreshA | halt | di | ei | im0 | im1 | im2 => exact done_alike (h.regs rfl) rfl
  case exAtSPHL => exact done_alike ((h.exchangeTop rfl).2.setHL rfl) rfl
  case exAtSPIX => exact done_alike ((h.exchangeTop rfl).2.setIX rfl) rfl
  case exAtSPIY => exact done_alike ((h.exchangeTop rfl).2.setIY rfl) rfl
  case popQQ qq => exact done_alike (h.popWord.2.setR16AF qq rfl) rfl
  case popIX => exact done_alike (h.popWord.2.setIX rfl) rfl
  case popIY => exact done_alike (h.popWord.2.setIY rfl) rfl
  case inAN n =>
    obtain ⟨hv, hu⟩ := portRead_alike h (portAN s n)
    exact done_alike (hu.setA hv) rfl
  case inRC dst =>
    obtain ⟨hv, hu⟩ := portRead_alike h (bc s)
    exact done_alike ((hu.setR8 dst hv).setFlags (congrArg (fun v => byteFlags v (parity8 v)) hv)) rfl
  case ini | ind => exact done_alike (h.blockInput _) rfl
  case inir | indr => exact repeatWhileB_alike (h.blockInput _)
  case outNA n => exact done_alike (portWrite_alike h _ _) rfl
  case outCR src => exact done_alike (portWrite_alike h _ _) rfl
  case outi | outd => exact done_alike (h.blockOutput _) rfl
  case otir | otdr => exact repeatWhileB_alike (h.blockOutput _)
  case ldir | lddr => exact repeatWhile_alike (h.blockMove _) rfl
  case cpir | cpdr => exact repeatWhile_alike (h.blockSearch _) rfl
  case jrC | jrNC | jrZ | jrNZ => exact .ite rfl (done_alike (h.setPC rfl) rfl) (done_alike h rfl)
  case djnz => exact .ite rfl (done_alike ((h.setB rfl).setPC rfl) rfl) (done_alike (h.setB rfl) rfl)
  case jpCCNN cc nn =>
    refine done_alike ?_ rfl
    have hcond : condHolds (s.withHidden x) cc = condHolds s cc := rfl
    rw [hcond]
    split
    · exact h.setPC rfl
    · exact h
  case callCCNN => exact .ite rfl (done_alike (h.callTo rfl) rfl) (done_alike h rfl)
  case retCC => exact .ite rfl (done_alike h.returnFrom rfl) (done_alike h rfl)
  case setBAtHL | setBAtIX | setBAtIY | resBAtHL | resBAtIX | resBAtIY => exact done_alike (h.rewriteAt rfl) rfl
  case ret | reti => exact done_alike h.returnFrom rfl
  case retn => exact done_alike h.returnFromNmi rfl
  all_goals
    refine done_alike ?_ rfl
    repeat' with_reducible first
      | exact h
      | refine Alike.setR8 ?_ _ rfl
      | refine Alike.setFlags ?_ rfl
      | refine Alike.setA ?_ rfl
      | refine Alike.write8 ?_ rfl rfl
      | refine Alike.note ?_ _ rfl
      | refine Alike.setR16 ?_ _ rfl
      | refine Alike.setHL ?_ rfl
      | refine Alike.setDE ?_ rfl
      | refine Alike.setIX ?_ rfl
      | refine Alike.setIY ?_ rfl
      | refine Alike.setSP ?_ rfl
      | refine Alike.setPC ?_ rfl
      | refine Alike.memWrite16 ?_ rfl rfl
      | refine Alike.pushWord ?_ rfl
      | refine Alike.modifyReg ?_ _ rfl
      | refine Alike.modifyAt ?_ rfl rfl
      | refine Alike.rotateA ?_ rfl
      | refine Alike.addIn ?_ rfl
      | refine Alike.adcIn ?_ rfl
      | refine Alike.subIn ?_ rfl
      | refine Alike.sbcIn ?_ rfl
      | refine Alike.andIn ?_ rfl
      | refine Alike.orIn ?_ rfl
      | refine Alike.xorIn ?_ rfl
      | refine Alike.cpIn ?_ rfl
      | refine Alike.callTo ?_ rfl
      | exact h.blockMove _
      | exact h.blockSearch _

end Sys2Proof.Machine
end

section
/-! PROOFS. What debugging records cannot reach a program: the call, the ULA step and the machine step
(60_exceptions.md R555, R578, R590). -/

namespace Sys2Proof.Machine

variable {P : Prop} {s s' t t' : State}

/-- Where both states take the same branch, the answers of the branches decide. -/
theorem AlikeWith.ite {α : Type} {c c' : Prop} [Decidable c] [Decidable c'] (hc : c' = c) {r r' q q' : α × State}
    (hr : AlikeWith P r r') (hq : AlikeWith P q q') : AlikeWith P (if c then r else q) (if c' then r' else q') := by
  subst hc
  by_cases hc : c'
  · simpa only [hc, if_true] using hr
  · simpa only [hc, if_false] using hq

/-! ### The fetch -/

theorem Alike.of_ula (h : Alike P s s') {u u' : Ula} (hu : SameUla P u u') :
    Alike P { s with ula := u } { s' with ula := u' } := by
  obtain ⟨x, rfl⟩ := h.exists_hidden
  exact ⟨rfl, hu, h.colors⟩

/-- An update of the ULA that reads and writes no colour. -/
theorem Alike.mapUla (h : Alike P s s') {f : Ula → Ula} (g : Ula → Ula)
    (hf : ∀ v, (f v).withoutColors = g v.withoutColors) :
    Alike P { s with ula := f s.ula } { s' with ula := f s'.ula } := h.of_ula (h.ula.map hf)

/-- A colour byte that does not depend on the machine state, or no colour plane at all (log 17). -/
theorem colorRec_congr (hc : ColorsFixed s.cfg) (hcfg : s'.cfg = s.cfg) (pc0 : Word) (b : Byte) (r : List Byte) :
    (if s'.cfg.colorMode then r ++ [colorByte pc0 b s'] else r) =
      if s.cfg.colorMode then r ++ [colorByte pc0 b s] else r := by
  rw [hcfg]
  obtain hmode | ⟨v, hv⟩ := hc
  · simp [hmode]
  · simp [colorByte, hcfg, hv]

theorem Alike.showCharacter (h : Alike P s s') (pc0 : Word) (b : Byte) :
    Alike P (showCharacter pc0 b s) (showCharacter pc0 b s') := by
  have hglyph : glyphByte b s' = glyphByte b s := by
    have hline : s'.ula.line = s.ula.line := (congrArg Ula.line h.ula.1 :)
    simp only [glyphByte, h.cfg, h.cpu, h.peek, hline]
  refine h.of_ula ⟨?_, fun hp => ?_⟩
  · rw [hglyph]
    exact congrArg (fun u : Ula => { u with scanRec := u.scanRec ++ [glyphByte b s] }) h.ula.1
  · have hu := h.ula.2 hp
    simp only [hglyph, hu, colorRec_congr (h.colors hp) h.cfg]

theorem ulaIntercept_alike (h : Alike P s s') (pc0 : Word) (b : Byte) :
    AlikeWith P (ulaIntercept pc0 b s) (ulaIntercept pc0 b s') := by
  refine .ite (by rw [h.cfg]) ⟨rfl, ?_⟩ ⟨rfl, h⟩
  dsimp only
  cases hread : s.cfg.charRead <;> simp only [h.cfg ▸ hread]
  · exact h.showCharacter pc0 b
  · exact h.mapUla (f := fun u => { u with pendingChar := some (pc0, b) })
      (fun u => { u with pendingChar := some (pc0, b) }) fun _ => rfl

theorem Alike.showPending (h : Alike P s s') : Alike P (showPending s) (showPending s') := by
  have hpending : s'.ula.pendingChar = s.ula.pendingChar := (congrArg Ula.pendingChar h.ula.1 :)
  unfold Machine.showPending
  rw [hpending]
  split
  · exact h
  · exact Alike.showCharacter (h.mapUla (f := fun u => { u with pendingChar := none })
      (fun u => { u with pendingChar := none }) fun _ => rfl) _ _

theorem Alike.afterFirst (h : Alike P s s') : Alike P (afterFirst s) (afterFirst s') := by
  obtain ⟨x, rfl⟩ := h.exists_hidden
  exact ⟨rfl, h.ula, h.colors⟩

/-- The first fetch reads the byte at `PC`, and the ULA may intercept it (30_encoding.md R150, R151). -/
theorem fetchFirst_eq (s : State) : fetchFirst s =
    if intercepts (afterFirst s) s.cpu.pc then ulaIntercept s.cpu.pc (peek s s.cpu.pc) (afterFirst s)
    else (peek s s.cpu.pc, afterFirst s) := rfl

theorem fetchFirst_alike (h : Alike P s s') : AlikeWith P (fetchFirst s) (fetchFirst s') := by
  have hfirst := h.afterFirst
  rw [fetchFirst_eq, fetchFirst_eq]
  rw [h.cpu, h.peek]
  exact .ite (by rw [intercepts, hfirst.cfg, intercepts]) (ulaIntercept_alike hfirst _ _) ⟨rfl, hfirst⟩

theorem fetchBytes_alike (h : Alike P s s') (a : Word) (n : Nat) :
    AlikeWith P (fetchBytes a n s) (fetchBytes a n s') := by
  induction n generalizing a s s' with
  | zero => exact ⟨rfl, h⟩
  | succ n ih =>
    obtain ⟨hbs, hu⟩ := ih (h.read8 (a := a) rfl) (a + 1#16)
    exact ⟨congrArg₂ List.cons (h.peek a) hbs, hu⟩

theorem fetchPrefixed_alike (h : Alike P s s') (pc0 : Word) (b1 : Byte) :
    AlikeWith P (fetchPrefixed pc0 b1 s) (fetchPrefixed pc0 b1 s') := by
  have hb2 : (read8 (pc0 + 1#16) s').1 = (read8 (pc0 + 1#16) s).1 := h.peek _
  simp only [fetchPrefixed, hb2]
  obtain ⟨hbs, hu⟩ := fetchBytes_alike (h.read8 (a := pc0 + 1#16) rfl).incR (pc0 + 2#16)
    (instrLength b1 (read8 (pc0 + 1#16) s).1 - 2)
  exact ⟨congrArg (b1 :: _ :: ·) hbs, hu⟩

theorem fetchInstr_alike (h : Alike P s s') : AlikeWith P (fetchInstr s) (fetchInstr s') := by
  obtain ⟨hb1, hfirst⟩ := fetchFirst_alike h
  simp only [fetchInstr, h.cpu, hb1]
  split
  · obtain ⟨hbs, hu⟩ := fetchBytes_alike hfirst.incR (s.cpu.pc + 1#16) (operandCount mainRows (fetchFirst s).1)
    exact ⟨congrArg (List.cons _) hbs, hu⟩
  all_goals exact fetchPrefixed_alike hfirst.incR _ _

/-! ### Interrupts -/

theorem Alike.setFault (h : Alike P s s') (f : Option Fault) :
    Alike P { s with fault := f } { s' with fault := f } := by
  obtain ⟨x, rfl⟩ := h.exists_hidden
  exact ⟨rfl, h.ula, h.colors⟩

theorem Alike.memRead16 (h : Alike P s s') (a : Word) : AlikeWith P (memRead16 a s) (memRead16 a s') :=
  ⟨congrArg₂ wordOf (h.peek _) (h.peek _), (h.read8 rfl).read8 rfl⟩

theorem Alike.leaveHalt (h : Alike P s s') : Alike P (leaveHalt s) (leaveHalt s') := by
  simp only [Machine.leaveHalt, h.cpu]
  split
  · exact h.regs rfl
  · exact h

theorem Alike.saveReturn (h : Alike P s s') (nmi : Bool) : Alike P (saveReturn nmi s) (saveReturn nmi s') := by
  have hr := h.leaveHalt.incR
  have hd : Alike P (disableInterrupts nmi (Machine.incR (Machine.leaveHalt s)))
      (disableInterrupts nmi (Machine.incR (Machine.leaveHalt s'))) := hr.regs (by rw [hr.cpu])
  exact hd.pushWord (by rw [hd.cpu])

theorem enterInterrupt_alike (h : Alike P s s') (nmi : Bool) (bus : Byte) :
    AlikeWith P (enterInterrupt nmi bus s) (enterInterrupt nmi bus s') := by
  have hu := h.saveReturn nmi
  simp only [enterInterrupt, hu.cpu]
  split
  · exact ⟨rfl, hu.setPC rfl⟩
  · split
    · exact ⟨rfl, hu.setPC rfl⟩
    · exact ⟨rfl, hu.setPC rfl⟩
    · obtain ⟨htarget, hread⟩ := hu.memRead16 (wordOf (saveReturn nmi s).cpu.i bus)
      exact ⟨rfl, hread.setPC htarget⟩

theorem generateInterrupt_alike (h : Alike P s s') (nmi : Bool) (bus : Byte) :
    AlikeWith P (generateInterrupt nmi bus s) (generateInterrupt nmi bus s') := by
  refine .ite rfl (enterInterrupt_alike h true bus) (.ite ?_ ⟨rfl, h⟩
    (.ite (by rw [h.cpu]) ⟨rfl, h.setFault _⟩ (enterInterrupt_alike h false bus)))
  rw [acceptsMaskable, acceptsMaskable, h.cpu]

/-! ### A call of `ExecuteOne` -/

theorem deferredEntry_alike (h : Alike P s s') (fire : Bool) :
    AlikeWith P (deferredEntry fire s) (deferredEntry fire s') := by
  cases fire
  · exact ⟨rfl, h⟩
  · simp only [deferredEntry_true, h.cfg]
    exact generateInterrupt_alike h _ _

theorem Alike.edgeDetect (h : Alike P s s') : Alike P (edgeDetect s) (edgeDetect s') := by
  have hprev : s'.ula.prevR = s.ula.prevR := (congrArg Ula.prevR h.ula.1 :)
  cases hbit : s.cfg.rIntBit with
  | none => rwa [edgeDetect_of_no_bit hbit, edgeDetect_of_no_bit (h.cfg ▸ hbit)]
  | some bit =>
    have hregs := h.regs
      (c := { s.cpu with intDeferred := s.cpu.intDeferred || (s.ula.prevR.getLsbD bit && !s.cpu.r.getLsbD bit) })
      (c' := { s'.cpu with intDeferred := s'.cpu.intDeferred || (s'.ula.prevR.getLsbD bit && !s'.cpu.r.getLsbD bit) })
      (by rw [h.cpu, hprev])
    have hsample : SameUla P { s.ula with prevR := s.cpu.r } { s'.ula with prevR := s'.cpu.r } := by
      rw [h.cpu]
      exact h.ula.map (f := fun u => { u with prevR := s.cpu.r }) (g := fun u => { u with prevR := s.cpu.r })
        fun _ => rfl
    simpa only [Machine.edgeDetect, hbit, h.cfg ▸ hbit] using hregs.of_ula hsample

theorem Alike.setCountdown (h : Alike P s s') {v v' : Int} (hv : v' = v) :
    Alike P (setCountdown v s) (setCountdown v' s') := h.regs (by rw [h.cpu, hv])

theorem countdownEntry_alike (h : Alike P s s') (n : Nat) :
    AlikeWith P (countdownEntry n s) (countdownEntry n s') := by
  obtain ⟨x, rfl⟩ := h.exists_hidden
  obtain ⟨hx, hu⟩ := generateInterrupt_alike
    (h.setCountdown (v := s.cpu.intCountdown - n + s.cfg.intPeriodT) rfl) false s.cfg.intBusByte
  have hentered := hu.setCountdown (congrArg₂ (fun (c : Cpu) (y : Nat) => c.intCountdown - y) hu.cpu hx)
  exact .ite rfl ⟨rfl, h⟩ (.ite rfl ⟨hx, hentered⟩ ⟨rfl, h.setCountdown rfl⟩)

theorem Alike.fault (h : Alike P s s') : s'.fault = s.fault := (congrArg State.fault h.seen :)

theorem Alike.closeCall (h : Alike P s s') (idle idle' : Bool) (n n' x x' y y' : Nat) :
    Alike P (closeCall idle n x y s) (closeCall idle' n' x' y' s') := by
  rw [closeCall_only idle n, closeCall_only idle' n']
  obtain ⟨z, rfl⟩ := h.exists_hidden
  exact ⟨rfl, h.ula, h.colors⟩

theorem AlikeWith.exists_eq {α : Type} {r r' : α × State} {x : α} (h : AlikeWith P r r') (hr : r = (x, t)) :
    ∃ t', r' = (x, t') ∧ Alike P t t' := by
  subst hr
  exact ⟨r'.2, Prod.ext h.1 rfl, h.2⟩

/-- Where the end of a call makes no fault in one state, it makes none in a state alike, and returns the same
T-states. -/
theorem finishCall_alike (h : Alike P s s') (htIns : s'.tIns = s.tIns) {fire : Bool}
    (hf : (finishCall fire s).fault = none) :
    Alike P (finishCall fire s) (finishCall fire s') ∧ (finishCall fire s').tCall = (finishCall fire s).tCall := by
  obtain ⟨x, u, y, v, hd, hu, hc, hv, heq⟩ := finishCall_closed hf
  obtain ⟨u', hd', hualike⟩ := (deferredEntry_alike h fire).exists_eq hd
  obtain ⟨v', hc', hvalike⟩ := (countdownEntry_alike hualike.edgeDetect (s.tIns + x)).exists_eq hc
  rw [heq, finishCall_of_entries hd' (hualike.fault.trans hu) (htIns ▸ hc') (hvalike.fault.trans hv)]
  exact ⟨hvalike.closeCall .., by simp only [closeCall_tCall, htIns]⟩

/-- The instruction of a call runs in states alike, at one cost. -/
theorem Ran.alike {u : State} (hran : Ran s u) (h : Alike P (beginCall s) (beginCall s')) :
    ∃ u', Ran s' u' ∧ Alike P u u' ∧ u'.tIns = u.tIns := by
  obtain ⟨i, rest, hdecode, hexec⟩ := hran
  obtain ⟨hbytes, hfetched⟩ := fetchInstr_alike h
  have hpc : s'.cpu.pc = s.cpu.pc := h.pc0
  obtain ⟨t, u', ht, hexec', halike, htIns⟩ := exec_alike
    (hfetched.setPC (congrArg₂ (fun (pc : Word) (bytes : List Byte) => pc + BitVec.ofNat 16 bytes.length) hpc hbytes)) i
  cases hexec.symm.trans ht
  exact ⟨u', ⟨i, rest, hbytes ▸ hdecode, hexec'⟩, halike, htIns⟩

theorem executeOne_alike (h : Alike P (beginCall s) (beginCall s')) (hcpu : s'.cpu = s.cpu)
    (hcall : executeOne s = .next t) (hf : t.fault = none) :
    ∃ t', executeOne s' = .next t' ∧ Alike P t t' ∧ t'.tCall = t.tCall := by
  obtain ⟨u, hran, rfl⟩ := executeOne_of_no_fault hcall hf
  obtain ⟨u', hran', halike, htIns⟩ := hran.alike h
  rw [hran'.executeOne_eq, hcpu]
  exact ⟨_, rfl, finishCall_alike halike htIns hf⟩

/-! ### A ULA step -/

theorem Alike.withNotices (h : Alike P s s') (ns ns' : List Notice) :
    Alike P { s with notices := ns } { s' with notices := ns' } := by
  obtain ⟨x, rfl⟩ := h.exists_hidden
  exact ⟨rfl, h.ula, h.colors⟩

theorem Alike.readBlock (h : Alike P s s') (a : Word) (n : Nat) : readBlock s' a n = readBlock s a n := by
  obtain ⟨x, rfl⟩ := h.exists_hidden
  exact readBlock_congr (s := s) (t := s.withHidden x) rfl rfl rfl a n

theorem Alike.endOfLine (h : Alike P s s') : Alike P (endOfLine s) (endOfLine s') := by
  by_cases hvariant : s.cfg.ulaVariant = .busReplay
  · rw [endOfLine_of_busReplay hvariant, endOfLine_of_busReplay (h.cfg ▸ hvariant)]
    exact h.mapUla (f := fun u => { u with
        work := u.work ++ [u.scanRec], colorWork := u.colorWork ++ [u.colorRec], scanRec := [], colorRec := [] })
      (fun u => { u with work := u.work ++ [u.scanRec], scanRec := [] }) fun _ => rfl
  · rwa [endOfLine_of_ne_busReplay hvariant, endOfLine_of_ne_busReplay (h.cfg ▸ hvariant)]

theorem hsyncActions_alike (h : Alike P s s') : AlikeWith P (hsyncActions s) (hsyncActions s') := by
  have hon : s'.ula.nmiOn = s.ula.nmiOn := (congrArg Ula.nmiOn h.ula.1 :)
  have ht : s'.ula.t = s.ula.t := (congrArg Ula.t h.ula.1 :)
  have hedge : s'.ula.hsyncEdgeT = s.ula.hsyncEdgeT := (congrArg Ula.hsyncEdgeT h.ula.1 :)
  obtain ⟨hcost, hentry⟩ := generateInterrupt_alike h true 0x00#8
  refine .ite (by rw [hon]) ⟨?_, hentry⟩ ⟨rfl, h⟩
  simp only [h.cpu, h.cfg, ht, hedge, hcost]

theorem Alike.atEdge (h : Alike P s s') : Alike P (atEdge s) (atEdge s') := by
  obtain ⟨x, rfl⟩ := h.exists_hidden
  exact h.mapUla (f := fun u => { u with
      lineT := u.lineT - s.cfg.tScanline, hsyncEdgeT := u.t - (u.lineT - s.cfg.tScanline), line := u.line + 1 })
    (fun u => { u with
      lineT := u.lineT - s.cfg.tScanline, hsyncEdgeT := u.t - (u.lineT - s.cfg.tScanline), line := u.line + 1 })
    fun _ => rfl

theorem hsyncEdges_alike (h : Alike P s s') (n : Nat) : AlikeWith P (hsyncEdges n s) (hsyncEdges n s') := by
  induction n generalizing s s' with
  | zero => exact ⟨rfl, h⟩
  | succ n ih =>
    obtain ⟨hx, hu⟩ := hsyncActions_alike h.atEdge.endOfLine
    obtain ⟨hy, hv⟩ := ih hu
    exact ⟨congrArg₂ (· + ·) hx hy, hv⟩

theorem Alike.frameComplete (h : Alike P s s') : Alike P (frameComplete s) (frameComplete s') := by
  have hblock : Machine.readBlock s' s'.cfg.displayBase s'.cfg.displayLen =
      Machine.readBlock s s.cfg.displayBase s.cfg.displayLen := by rw [h.cfg, h.readBlock]
  cases hvariant : s.cfg.ulaVariant with
  | none => rwa [frameComplete_of_none hvariant, frameComplete_of_none (h.cfg ▸ hvariant)]
  | bufferReplay =>
    rw [frameComplete_of_bufferReplay hvariant, frameComplete_of_bufferReplay (h.cfg ▸ hvariant), hblock]
    generalize Machine.readBlock s s.cfg.displayBase s.cfg.displayLen = data
    exact (h.mapUla (f := fun u => { u with frame := some (.bytes data), frameT := u.t })
      (fun u => { u with frame := some (.bytes data), frameT := u.t }) fun _ => rfl).withNotices _ _
  | busReplay =>
    rw [frameComplete_of_busReplay hvariant, frameComplete_of_busReplay (h.cfg ▸ hvariant)]
    exact (h.mapUla (f := fun u => { u with
        frame := some (.lines u.work u.colorWork), frameT := u.t
        work := [], colorWork := [], scanRec := [], colorRec := [] })
      (fun u => { u with frame := some (.lines u.work []), frameT := u.t, work := [], scanRec := [] })
      fun _ => rfl).withNotices _ _

theorem Alike.ite {c c' : Prop} [Decidable c] [Decidable c'] (hc : c' = c) (ht : Alike P t t') (hs : Alike P s s') :
    Alike P (if c then t else s) (if c' then t' else s') := by
  subst hc
  by_cases hc : c'
  · simpa only [hc, if_true] using ht
  · simpa only [hc, if_false] using hs

theorem Alike.vsyncTrack (h : Alike P s s') : Alike P (vsyncTrack s) (vsyncTrack s') := by
  have hsync : s'.ula.syncReq = s.ula.syncReq := (congrArg Ula.syncReq h.ula.1 :)
  have hvsync : s'.ula.vsync = s.ula.vsync := (congrArg Ula.vsync h.ula.1 :)
  have hstart : s'.ula.vsyncStartT = s.ula.vsyncStartT := (congrArg Ula.vsyncStartT h.ula.1 :)
  have ht : s'.ula.t = s.ula.t := (congrArg Ula.t h.ula.1 :)
  have hended := h.mapUla (f := fun u => { u with vsync := false, vsyncEndT := u.t, line := 0 })
    (fun u => { u with vsync := false, vsyncEndT := u.t, line := 0 }) fun _ => rfl
  refine .ite (by rw [hsync, hvsync]) ?_ (.ite (by rw [hsync, hvsync]) (.ite ?_ hended.frameComplete hended) h)
  · exact h.mapUla (f := fun u => { u with vsync := true, vsyncStartT := u.t })
      (fun u => { u with vsync := true, vsyncStartT := u.t }) fun _ => rfl
  · simp only [hstart, ht, h.cfg]

theorem Alike.moveClock (h : Alike P s s') {n n' : Nat} (hn : n' = n) : Alike P (moveClock n s) (moveClock n' s') := by
  subst hn
  exact h.mapUla (f := fun u => { u with t := u.t + n', lineT := u.lineT + n' })
    (fun u => { u with t := u.t + n', lineT := u.lineT + n' }) fun _ => rfl

theorem advanceUla_alike (h : Alike P s s') (n : Nat) : AlikeWith P (advanceUla n s) (advanceUla n s') := by
  have hline : s'.ula.lineT = s.ula.lineT := (congrArg Ula.lineT h.ula.1 :)
  obtain ⟨hextra, hedges⟩ := hsyncEdges_alike (h.moveClock (n := n) rfl) ((s.ula.lineT + n) / s.cfg.tScanline)
  rw [advanceUla_eq, advanceUla_eq, hline, h.cfg]
  exact ⟨hextra, hedges.vsyncTrack.moveClock hextra⟩

theorem ulaStep_alike (h : Alike P s s') (n : Nat) : AlikeWith P (ulaStep n s) (ulaStep n s') := by
  cases hvariant : s.cfg.ulaVariant <;> simp only [ulaStep, hvariant, h.cfg ▸ hvariant]
  · exact ⟨rfl, h⟩
  · exact advanceUla_alike h n
  · exact advanceUla_alike h.showPending n

/-! ### A step -/

theorem Alike.addCoverage (h : Alike P s s') (a a' : Word) (n n' : Nat) :
    Alike P (addCoverage a { s with tTotal := n }) (addCoverage a' { s' with tTotal := n' }) := by
  rw [addCoverage_only a, addCoverage_only a']
  obtain ⟨x, rfl⟩ := h.exists_hidden
  exact ⟨rfl, h.ula, h.colors⟩

/-- At the start of a step without a fault, states of one view are alike. -/
theorem alike_of_programView (hf : s.fault = none) (hf' : s'.fault = none) (hview : programView s = programView s')
    (failure : Option Failure) : Alike (ColorsFixed s.cfg ∧ s.ula = s'.ula)
      (beginCall { s with failure := failure }) (beginCall { s' with failure := failure }) := by
  simp only [programView, ProgramView.mk.injEq] at hview
  obtain ⟨hcfg, hcpu, hmem, hslots, hperiph, hscript, hula, hdraws⟩ := hview
  refine ⟨?_, ⟨hula.symm, fun hp => hp.2.symm⟩, fun hp => hp.1⟩
  simp only [State.withHidden, hidden, beginCall, hcfg, hcpu, hmem, hslots, hperiph, hscript, hdraws, hf, hf']

theorem Alike.programView (h : Alike P s s') : programView s' = programView s := by
  have hula := h.ula.1
  obtain ⟨x, rfl⟩ := h.exists_hidden
  simp only [Machine.programView, hula]
  rfl

/-- Settles O59: alike states stay alike through the call and the ULA step, whose outcome hides what they differ in. -/
theorem debugNoninterference : Obligations.DebugNoninterference := by
  intro s s' t hf hf' hview hstep
  obtain ⟨-, u, hcall, huf, rfl⟩ := step_of_next hstep
  obtain ⟨u', hcall', halike, htCall⟩ := executeOne_alike (alike_of_programView hf hf' hview none)
    (congrArg ProgramView.cpu hview).symm hcall huf
  have huf' : u'.fault = none := halike.fault.trans huf
  have hfinish : Alike (ColorsFixed s.cfg ∧ s.ula = s'.ula) (finishStep u) (finishStep u') := by
    rw [finishStep_of_no_fault huf, finishStep_of_no_fault huf', htCall]
    exact (ulaStep_alike halike u.tCall).2.addCoverage _ _ _ _
  have hnext : (finishStep u').fault = none := by
    rw [hfinish.fault, finishStep_of_no_fault huf, addCoverage_only]
    exact (congrArg Fixed.fault (ulaStep_fixedByUla u.tCall u) :).trans huf
  have hm : machineStep s' = .next (finishStep u') := by rw [machineStep, hcall']
  refine ⟨finishStep u', ?_, hfinish.programView, fun hc hu => hfinish.ula.2 ⟨hc, hu⟩⟩
  rw [step_of_machineStep hf' hm, outcome, hnext]

end Sys2Proof.Machine
end

section
/-! PROOFS. The ULA step: the scanline clock, the vertical-sync pulse, the frame (60_exceptions.md R547 to R552,
R554). -/

namespace Sys2Proof.Machine

variable {s t u v w : State}

/-! ### Horizontal-sync edges -/

/-- From `s` to `t` there were `n` horizontal-sync edges: of the ULA they change the scanline clock and the line
records (60_exceptions.md R547, R554). -/
def EdgesOnly (n : Nat) (s t : State) : Prop :=
  t.cfg = s.cfg ∧ t.notices = s.notices ∧ t.ula = { s.ula with
    lineT := t.ula.lineT, hsyncEdgeT := t.ula.hsyncEdgeT, line := s.ula.line + n
    scanRec := t.ula.scanRec, work := t.ula.work, colorRec := t.ula.colorRec, colorWork := t.ula.colorWork }

theorem EdgesOnly.trans {m n : Nat} (h : EdgesOnly m s t) (h' : EdgesOnly n t u) : EdgesOnly (m + n) s u := by
  obtain ⟨hcfg, hnotices, hula⟩ := h
  obtain ⟨hcfg', hnotices', hula'⟩ := h'
  refine ⟨hcfg'.trans hcfg, hnotices'.trans hnotices, ?_⟩
  rw [hula', hula, Nat.add_assoc]

theorem atEdge_edgesOnly (s : State) : EdgesOnly 1 s (atEdge s) := ⟨rfl, rfl, rfl⟩

/-- The end of a line writes the line records alone. -/
theorem endOfLine_records (s : State) : ∃ scanRec work colorRec colorWork, endOfLine s = { s with ula := { s.ula with
    scanRec := scanRec, work := work, colorRec := colorRec, colorWork := colorWork } } := by
  unfold endOfLine
  split <;> exact ⟨_, _, _, _, rfl⟩

theorem endOfLine_edgesOnly (s : State) : EdgesOnly 0 s (endOfLine s) := by
  obtain ⟨_, _, _, _, heq⟩ := endOfLine_records s
  rw [heq]
  exact ⟨rfl, rfl, rfl⟩

/-- The actions of an edge leave the configuration, the notifications and the ULA. -/
theorem hsyncActions_kept (s : State) : (hsyncActions s).2.cfg = s.cfg ∧ (hsyncActions s).2.notices = s.notices ∧
    (hsyncActions s).2.ula = s.ula := by
  cases hon : s.ula.nmiOn
  · rw [hsyncActions_of_off hon]
    exact ⟨rfl, rfl, rfl⟩
  · rw [hsyncActions_of_on hon]
    have hfixed := (fixed_closed (fixed s)).enterInterrupt rfl true 0x00#8
    exact ⟨congrArg Fixed.cfg hfixed, congrArg Fixed.notices hfixed, (enterInterrupt_timing true 0x00#8 s).2⟩

theorem hsyncActions_edgesOnly (s : State) : EdgesOnly 0 s (hsyncActions s).2 := by
  obtain ⟨hcfg, hnotices, hula⟩ := hsyncActions_kept s
  exact ⟨hcfg, hnotices, by rw [hula]; rfl⟩

theorem hsyncEdge_edgesOnly (s : State) : EdgesOnly 1 s (hsyncEdge s).2 :=
  ((atEdge_edgesOnly s).trans (endOfLine_edgesOnly _)).trans (hsyncActions_edgesOnly _)

theorem hsyncEdges_edgesOnly (n : Nat) (s : State) : EdgesOnly n s (hsyncEdges n s).2 := by
  induction n generalizing s with
  | zero => exact ⟨rfl, rfl, rfl⟩
  | succ n ih =>
    have hrun := (hsyncEdge_edgesOnly s).trans (ih (hsyncEdge s).2)
    rwa [Nat.add_comm] at hrun

/-- With the generator off the edges change the ULA alone, and add no T-states (60_exceptions.md R548). -/
theorem hsyncEdges_of_off (n : Nat) (h : s.ula.nmiOn = false) :
    (hsyncEdges n s).1 = 0 ∧ (hsyncEdges n s).2 = { s with ula := (hsyncEdges n s).2.ula } := by
  induction n generalizing s with
  | zero => exact ⟨rfl, rfl⟩
  | succ n ih =>
    obtain ⟨_, _, _, _, hline⟩ := endOfLine_records (atEdge s)
    have hoff : (endOfLine (atEdge s)).ula.nmiOn = false := by rw [hline]; exact h
    obtain ⟨hcost, hrest⟩ := ih hoff
    have hedge : hsyncEdge s = (0, endOfLine (atEdge s)) := hsyncActions_of_off hoff
    simp only [hsyncEdges, hedge]
    refine ⟨by rw [hcost], ?_⟩
    rw [hrest, hline]
    rfl

/-! ### The vertical-sync pulse -/

/-- The signal falls: `VsyncTrack` ends the pulse (60_exceptions.md R549). -/
def endVsync (s : State) : State :=
  { s with ula := { s.ula with vsync := false, vsyncEndT := s.ula.t, line := 0 } }

/-- A pulse of at least the minimum length ends `n` T-states on (60_exceptions.md R549). -/
def PulseEnds (n : Nat) (s : State) : Prop :=
  s.ula.syncReq = false ∧ s.ula.vsync = true ∧ s.ula.vsyncStartT + s.cfg.tVsyncMin ≤ s.ula.t + n

/-- The signal rises: `VsyncTrack` begins a pulse (60_exceptions.md R549). -/
def beginVsync (s : State) : State := { s with ula := { s.ula with vsync := true, vsyncStartT := s.ula.t } }

/-- The four ends of `VsyncTrack`: a pulse of the minimum length ends, a shorter one does, one begins, or the signal is
as it was (60_exceptions.md R549). -/
theorem vsyncTrack_cases (s : State) :
    (PulseEnds 0 s ∧ vsyncTrack s = frameComplete (endVsync s)) ∨
    (¬ PulseEnds 0 s ∧ s.ula.vsync = true ∧ s.ula.syncReq = false ∧ vsyncTrack s = endVsync s) ∨
    (¬ PulseEnds 0 s ∧ s.ula.vsync = false ∧ s.ula.syncReq = true ∧ vsyncTrack s = beginVsync s) ∨
    (¬ PulseEnds 0 s ∧ s.ula.vsync = s.ula.syncReq ∧ vsyncTrack s = s) := by
  cases hvsync : s.ula.vsync <;> cases hsync : s.ula.syncReq
  · exact .inr (.inr (.inr ⟨by simp [PulseEnds, hvsync], rfl, by simp [vsyncTrack, hvsync, hsync]⟩))
  · exact .inr (.inr (.inl ⟨by simp [PulseEnds, hvsync], rfl, rfl, by simp [vsyncTrack, hvsync, hsync, beginVsync]⟩))
  · by_cases hlong : s.ula.vsyncStartT + s.cfg.tVsyncMin ≤ s.ula.t
    · exact .inl ⟨⟨hsync, hvsync, hlong⟩, by simp [vsyncTrack, hvsync, hsync, hlong, endVsync]⟩
    · exact .inr (.inl ⟨by simp [PulseEnds, hlong], rfl, rfl, by simp [vsyncTrack, hvsync, hsync, hlong, endVsync]⟩)
  · exact .inr (.inr (.inr ⟨by simp [PulseEnds, hsync], rfl, by simp [vsyncTrack, hvsync, hsync]⟩))

theorem vsyncTrack_of_pulse (h : PulseEnds 0 s) : vsyncTrack s = frameComplete (endVsync s) := by
  obtain ⟨-, heq⟩ | ⟨hno, -⟩ | ⟨hno, -⟩ | ⟨hno, -⟩ := vsyncTrack_cases s
  · exact heq
  all_goals exact absurd h hno

/-- Without the end of such a pulse `VsyncTrack` changes the signal, its times and the line counter alone. -/
theorem vsyncTrack_of_no_pulse (h : ¬ PulseEnds 0 s) : let t := vsyncTrack s
    t = { s with ula := { s.ula with
      vsync := t.ula.vsync, vsyncStartT := t.ula.vsyncStartT, vsyncEndT := t.ula.vsyncEndT, line := t.ula.line } } := by
  obtain ⟨hpulse, -⟩ | ⟨-, -, -, heq⟩ | ⟨-, -, -, heq⟩ | ⟨-, -, heq⟩ := vsyncTrack_cases s
  · exact absurd hpulse h
  · rw [heq]; rfl
  · rw [heq]; rfl
  · rw [heq]

theorem vsyncTrack_of_idle (hsync : s.ula.syncReq = false) (hvsync : s.ula.vsync = false) : vsyncTrack s = s := by
  simp [vsyncTrack, hsync, hvsync]

theorem frameComplete_timing (s : State) : let t := frameComplete s
    t.ula.syncReq = s.ula.syncReq ∧ t.ula.hsyncEdgeT = s.ula.hsyncEdgeT ∧ t.ula.line = s.ula.line := by
  unfold frameComplete
  split <;> exact ⟨rfl, rfl, rfl⟩

/-- `VsyncTrack` sets the line counter to 0 where a pulse ends, of whatever length (60_exceptions.md R549). -/
theorem vsyncTrack_timing (s : State) : let t := vsyncTrack s
    t.ula.syncReq = s.ula.syncReq ∧ t.ula.hsyncEdgeT = s.ula.hsyncEdgeT ∧
      t.ula.line = if s.ula.vsync = true ∧ s.ula.syncReq = false then 0 else s.ula.line := by
  obtain ⟨⟨hsync, hvsync, -⟩, heq⟩ | ⟨-, hvsync, hsync, heq⟩ | ⟨-, hvsync, -, heq⟩ | ⟨-, hsame, heq⟩ :=
    vsyncTrack_cases s <;> rw [heq]
  · rw [if_pos ⟨hvsync, hsync⟩]
    exact frameComplete_timing (endVsync s)
  · rw [if_pos ⟨hvsync, hsync⟩]
    exact ⟨rfl, rfl, rfl⟩
  · rw [if_neg (by simp [hvsync])]
    exact ⟨rfl, rfl, rfl⟩
  · rw [if_neg (by simp [hsame])]
    exact ⟨rfl, rfl, rfl⟩

/-! ### `UlaStep` -/

/-- The state with other line records and another kept character: what showing a character changes. -/
def State.withShown (s : State) (scanRec colorRec : List Byte) (pendingChar : Option (Word × Byte)) : State :=
  { s with ula := { s.ula with scanRec := scanRec, colorRec := colorRec, pendingChar := pendingChar } }

/-- Without a ULA nothing is done; with one, a kept character is shown, if any, and the ULA advances
(60_exceptions.md R547). -/
theorem ulaStep_cases (n : Nat) (s : State) :
    (s.cfg.ulaVariant = .none ∧ ulaStep n s = (0, s)) ∨
    (s.cfg.ulaVariant ≠ .none ∧ ∃ scanRec colorRec pendingChar,
      ulaStep n s = advanceUla n (s.withShown scanRec colorRec pendingChar)) := by
  unfold ulaStep
  split
  · exact .inl ⟨‹_›, rfl⟩
  · next hv => exact .inr ⟨by simp [hv], s.ula.scanRec, s.ula.colorRec, s.ula.pendingChar, rfl⟩
  · next hv => exact .inr ⟨by simp [hv], _, _, _, congrArg (advanceUla n) (showPending_only s)⟩

theorem ulaStep_of_bufferReplay (n : Nat) (h : s.cfg.ulaVariant = .bufferReplay) : ulaStep n s = advanceUla n s := by
  simp [ulaStep, h]

/-! ### The frame -/

theorem EdgesOnly.pulseEnds {k n : Nat} (h : EdgesOnly k (moveClock n s) t) : PulseEnds 0 t ↔ PulseEnds n s := by
  obtain ⟨hcfg, -, hula⟩ := h
  rw [PulseEnds, hcfg, hula]
  exact Iff.rfl

/-- Without the end of a pulse of the minimum length the ULA shows no frame, and keeps the line records that the edges
left (60_exceptions.md R549, R550). -/
theorem advanceUla_of_no_pulse {n : Nat} (h : ¬ PulseEnds n s) :
    let e := (hsyncEdges ((s.ula.lineT + n) / s.cfg.tScanline) (moveClock n s)).2
    let t := (advanceUla n s).2
    t.ula.frame = s.ula.frame ∧ t.notices = s.notices ∧ t.ula.scanRec = e.ula.scanRec ∧ t.ula.work = e.ula.work ∧
      t.ula.colorRec = e.ula.colorRec ∧ t.ula.colorWork = e.ula.colorWork := by
  have hedges := hsyncEdges_edgesOnly ((s.ula.lineT + n) / s.cfg.tScanline) (moveClock n s)
  have hvsync := vsyncTrack_of_no_pulse (mt hedges.pulseEnds.mp h)
  obtain ⟨-, hnotices, hula⟩ := hedges
  rw [advanceUla_eq]
  dsimp only
  rw [hvsync]
  exact ⟨(congrArg Ula.frame hula :), hnotices, rfl, rfl, rfl, rfl⟩

/-- A pulse of the minimum length that ends completes the frame, before the T-states of the edges are added
(60_exceptions.md R549). -/
theorem advanceUla_of_pulse {n : Nat} (h : PulseEnds n s) :
    let r := hsyncEdges ((s.ula.lineT + n) / s.cfg.tScanline) (moveClock n s)
    (advanceUla n s).2 = moveClock r.1 (frameComplete (endVsync r.2)) := by
  have hedges := hsyncEdges_edgesOnly ((s.ula.lineT + n) / s.cfg.tScanline) (moveClock n s)
  have hvsync := vsyncTrack_of_pulse (hedges.pulseEnds.mpr h)
  rw [advanceUla_eq]
  dsimp only
  rw [hvsync]

theorem ulaStep_of_no_pulse {n : Nat} (h : ¬ PulseEnds n s) :
    (ulaStep n s).2.ula.frame = s.ula.frame ∧ (ulaStep n s).2.notices = s.notices := by
  obtain ⟨-, heq⟩ | ⟨-, scanRec, colorRec, pendingChar, heq⟩ := ulaStep_cases n s <;> rw [heq]
  · exact ⟨rfl, rfl⟩
  · obtain ⟨hframe, hnotices, -⟩ := advanceUla_of_no_pulse (s := s.withShown scanRec colorRec pendingChar) h
    exact ⟨hframe, hnotices⟩

end Sys2Proof.Machine
end

section
/-! PROOFS. The line counter and the interrupts of horizontal sync (60_exceptions.md R548, R552). -/

namespace Sys2Proof.Machine

variable {s t u v w : State} {n : Nat}

/-! ### With the generator off -/

/-- With the generator off an advance of the ULA changes the ULA and the notifications alone. -/
theorem advanceUla_of_off (n : Nat) (h : s.ula.nmiOn = false) : let t := (advanceUla n s).2
    (advanceUla n s).1 = 0 ∧ t = { s with ula := t.ula, notices := t.notices } := by
  obtain ⟨hcost, hedges⟩ := hsyncEdges_of_off (s := moveClock n s) ((s.ula.lineT + n) / s.cfg.tScanline) h
  have hvsync := vsyncTrack_only (hsyncEdges ((s.ula.lineT + n) / s.cfg.tScanline) (moveClock n s)).2
  rw [advanceUla_eq]
  refine ⟨hcost, ?_⟩
  dsimp only
  rw [hvsync, hedges]
  rfl

/-- With no sync signal an advance of the ULA counts the scanlines completed (60_exceptions.md R547, R549). -/
theorem advanceUla_of_no_sync (n : Nat) (hoff : s.ula.nmiOn = false) (hsync : s.ula.syncReq = false)
    (hvsync : s.ula.vsync = false) : let t := (advanceUla n s).2
    t.ula.t = s.ula.t + n ∧ t.ula.lineT = (s.ula.lineT + n) % s.cfg.tScanline ∧
      t.ula.line = s.ula.line + (s.ula.lineT + n) / s.cfg.tScanline ∧ t.ula.frame = s.ula.frame ∧
      t.ula.nmiOn = false ∧ t.ula.syncReq = false ∧ t.ula.vsync = false := by
  obtain ⟨hclock, hzero⟩ := hsyncEdges_setBack ((s.ula.lineT + n) / s.cfg.tScanline) (moveClock n s)
  obtain ⟨-, -, hula⟩ := hsyncEdges_edgesOnly ((s.ula.lineT + n) / s.cfg.tScanline) (moveClock n s)
  have hextra := hzero hoff
  have hlineT := hclock.lineT
  rw [advanceUla_eq]
  generalize hsyncEdges ((s.ula.lineT + n) / s.cfg.tScanline) (moveClock n s) = r at hula hextra hlineT ⊢
  have hidle : vsyncTrack r.2 = r.2 := vsyncTrack_of_idle (by rw [hula]; exact hsync) (by rw [hula]; exact hvsync)
  simp only [hidle, hextra]
  refine ⟨(congrArg Ula.t hula :), ?_, (congrArg Ula.line hula :), (congrArg Ula.frame hula :),
    (congrArg Ula.nmiOn hula :).trans hoff, (congrArg Ula.syncReq hula :).trans hsync,
    (congrArg Ula.vsync hula :).trans hvsync⟩
  rw [Nat.mod_eq_sub_div_mul]
  exact hlineT

theorem advanceUla_signals (n : Nat) (s : State) : let t := (advanceUla n s).2
    t.ula.nmiOn = s.ula.nmiOn ∧ t.ula.syncReq = s.ula.syncReq := by
  obtain ⟨_, -, -, -, hnmi, -⟩ := advanceUla_clock n s
  obtain ⟨-, -, hula⟩ := hsyncEdges_edgesOnly ((s.ula.lineT + n) / s.cfg.tScanline) (moveClock n s)
  exact ⟨hnmi, (vsyncTrack_timing _).1.trans (congrArg Ula.syncReq hula :)⟩

/-! ### A step of the machine -/

/-- A call without a fault leaves the ULA but for the sample of `R`, the signals, the line records and the kept
character. -/
theorem executeOne_ulaCore (h : executeOne s = .next t) (hf : t.fault = none) :
    ulaCore t = { ulaCore s with prevR := t.ula.prevR } := by
  obtain ⟨u, hran, rfl⟩ := executeOne_of_no_fault h hf
  obtain ⟨x, w, y, v, hd, hw, hc, hv, heq⟩ := finishCall_closed hf
  have hfirst := (deferredEntry_kept (by rw [hd]; exact hw)).2.1
  have hsecond := (countdownEntry_kept (by rw [hc]; exact hv)).2.1
  rw [hd] at hfirst
  rw [hc, edgeDetect_only, hfirst] at hsecond
  rw [← hran.ulaCore, heq, ulaCore, closeCall_ula, hsecond]
  rfl

theorem quiet_iff (s : State) : quiet s = true ↔ s.ula.nmiOn = false ∧ s.ula.syncReq = false ∧ s.ula.vsync = false := by
  simp [quiet, and_assoc]

theorem quiet_of_quietSteps (h : quietSteps n s = some t) : quiet s = true := by
  cases n <;> simp only [quietSteps] at h <;> split at h
  · assumption
  · cases h
  · assumption
  · cases h

/-- A step between quiet states advances the ULA by the T-states of its call. -/
theorem step_of_quiet (hbuffer : s.cfg.ulaVariant = .bufferReplay) (hs : s.ula.vsync = false) (hstep : step s = .next t)
    (ht : quiet t = true) : ∃ k, t.cfg = s.cfg ∧ t.ula.t = s.ula.t + k ∧ t.ula.lineT = (s.ula.lineT + k) % 207 ∧
      t.ula.line = s.ula.line + (s.ula.lineT + k) / 207 ∧ t.ula.frame = s.ula.frame := by
  obtain ⟨-, u, hcall, huf, rfl⟩ := step_of_next hstep
  have hcfg : u.cfg = s.cfg := (congrArg Fixed.cfg (executeOne_fixed hcall huf) :)
  have hcore := executeOne_ulaCore hcall huf
  have hadvance : (finishStep u).ula = (advanceUla u.tCall u).2.ula := by
    rw [finishStep_of_no_fault huf, addCoverage_ula, ulaStep_of_bufferReplay _ (hcfg ▸ hbuffer)]
  have hfinal : (finishStep u).cfg = u.cfg := by
    rw [finishStep_of_no_fault huf, addCoverage_cfg]
    exact (congrArg Fixed.cfg (ulaStep_fixedByUla u.tCall u) :)
  obtain ⟨hnmi, hsync, -⟩ := (quiet_iff _).mp ht
  rw [hadvance, (advanceUla_signals u.tCall u).1] at hnmi
  rw [hadvance, (advanceUla_signals u.tCall u).2] at hsync
  have hscanline : u.cfg.tScanline = 207 := by simp [Config.tScanline, hcfg, hbuffer]
  obtain ⟨gt, glineT, gline, gframe, -⟩ :=
    advanceUla_of_no_sync u.tCall hnmi hsync ((congrArg Ula.vsync hcore :).trans hs)
  rw [hscanline] at glineT gline
  have ht : u.ula.t = s.ula.t := (congrArg Ula.t hcore :)
  have hlineT : u.ula.lineT = s.ula.lineT := (congrArg Ula.lineT hcore :)
  have hline : u.ula.line = s.ula.line := (congrArg Ula.line hcore :)
  have hframe : u.ula.frame = s.ula.frame := (congrArg Ula.frame hcore :)
  rw [hadvance]
  exact ⟨u.tCall, hfinal.trans hcfg, by rw [gt, ht], by rw [glineT, hlineT], by rw [gline, hline, hlineT],
    gframe.trans hframe⟩

/-- Over quiet steps the line counter follows the T-states (60_exceptions.md R552). -/
theorem quietSteps_line (hbuffer : s.cfg.ulaVariant = .bufferReplay) (hline : s.ula.lineT < s.cfg.tScanline)
    (h : quietSteps n s = some t) :
    s.ula.t ≤ t.ula.t ∧ t.ula.line = s.ula.line + (s.ula.lineT + (t.ula.t - s.ula.t)) / 207 ∧
      t.ula.frame = s.ula.frame := by
  have hscanline : s.cfg.tScanline = 207 := by simp [Config.tScanline, hbuffer]
  induction n generalizing s with
  | zero =>
    simp only [quietSteps] at h
    split at h
    · cases h
      rw [hscanline] at hline
      exact ⟨Nat.le_refl _, by omega, rfl⟩
    · cases h
  | succ n ih =>
    have hquiet := quiet_of_quietSteps h
    rw [quietSteps, if_pos hquiet] at h
    obtain ⟨-, -, hvsync⟩ := (quiet_iff s).mp hquiet
    split at h
    · next w hstep =>
      obtain ⟨k, hcfg, ht, hlineT, hcount, hframe⟩ := step_of_quiet hbuffer hvsync hstep (quiet_of_quietSteps h)
      obtain ⟨hle, hcount', hframe'⟩ := ih (hcfg ▸ hbuffer) (by rw [hcfg, hscanline]; omega) h (hcfg ▸ hscanline)
      refine ⟨by omega, ?_, hframe'.trans hframe⟩
      omega
    · cases h
    · cases h

/-! ### With the generator on -/

theorem nmiTaken_of_enterInterrupt (hw : Memory.wf s.cfg s.mem = true)
    (hcfg : t.cfg = (enterInterrupt true 0x00#8 s).2.cfg)
    (hslots : t.slots = (enterInterrupt true 0x00#8 s).2.slots) (hmem : t.mem = (enterInterrupt true 0x00#8 s).2.mem)
    (hcpu : t.cpu = (enterInterrupt true 0x00#8 s).2.cpu) : NmiTaken s t := by
  obtain ⟨-, hentry, hstored, -⟩ := enterInterrupt_spec hw true 0x00#8
  exact nmiTaken_of_entry (hcpu.trans hentry) (hstored.congr hcfg hslots hmem)

/-- The actions of an edge with the generator on: the wait of a HALT and the entry (60_exceptions.md R548). -/
theorem hsyncActions_nmi (hw : Memory.wf s.cfg s.mem = true) (hon : s.ula.nmiOn = true) :
    (hsyncActions s).1 = (if s.cpu.halted then s.cfg.waitExtOf (s.ula.t - s.ula.hsyncEdgeT) else 0) + 11 ∧
      NmiTaken s (hsyncActions s).2 := by
  rw [hsyncActions_of_on hon]
  exact ⟨congrArg (_ + ·) (enterInterrupt_spec hw true 0x00#8).1, nmiTaken_of_enterInterrupt hw rfl rfl rfl rfl⟩

/-- One edge with the generator on, `offset` T-states after the scanline was complete. -/
theorem hsyncEdge_nmi (hw : Memory.wf s.cfg s.mem = true) (hon : s.ula.nmiOn = true)
    (hclock : s.ula.lineT - s.cfg.tScanline ≤ s.ula.t) : let u := (hsyncEdge s).2
    let offset := s.ula.lineT - s.cfg.tScanline
    (hsyncEdge s).1 = (if s.cpu.halted then s.cfg.waitExtOf offset else 0) + 11 ∧ NmiTaken s u ∧
      u.ula.line = s.ula.line + 1 ∧ u.ula.vsync = s.ula.vsync ∧ u.ula.syncReq = s.ula.syncReq ∧
      u.ula.hsyncEdgeT = s.ula.t - offset ∧ u.ula.t = s.ula.t ∧ u.ula.lineT = offset := by
  obtain ⟨_, _, _, _, hline⟩ := endOfLine_records (atEdge s)
  obtain ⟨hcost, htaken⟩ := hsyncActions_nmi (s := endOfLine (atEdge s)) (by rw [hline]; exact hw)
    (by rw [hline]; exact hon)
  have hula := (hsyncActions_kept (endOfLine (atEdge s))).2.2
  have hwait : s.ula.t - (s.ula.t - (s.ula.lineT - s.cfg.tScanline)) = s.ula.lineT - s.cfg.tScanline := by omega
  rw [hsyncEdge_eq]
  dsimp only
  rw [hula, hcost]
  generalize (hsyncActions (endOfLine (atEdge s))).2 = u at htaken ⊢
  rw [hline] at htaken ⊢
  simp only [atEdge, hwait]
  exact ⟨trivial, htaken, trivial, trivial, trivial, trivial, trivial, trivial⟩

/-- An advance that reaches one edge adds its T-states and enters its interrupt (60_exceptions.md R547, R548). -/
theorem advanceUla_of_one_edge (hw : Memory.wf s.cfg s.mem = true) (hclock : s.ula.lineT ≤ s.ula.t)
    (hon : s.ula.nmiOn = true) (hlow : s.cfg.tScanline ≤ s.ula.lineT + n)
    (hhigh : s.ula.lineT + n < 2 * s.cfg.tScanline) :
    let w := (advanceUla n s).2
    let offset := s.ula.lineT + n - s.cfg.tScanline
    let extra := (if s.cpu.halted then s.cfg.waitExtOf offset else 0) + 11
    (advanceUla n s).1 = extra ∧ NmiTaken s w ∧
      w.ula.line = (if s.ula.vsync = true ∧ s.ula.syncReq = false then 0 else s.ula.line + 1) ∧
      w.ula.hsyncEdgeT = s.ula.t + n - offset ∧ w.ula.t = s.ula.t + n + extra ∧ w.ula.lineT = offset + extra := by
  have hcount : (s.ula.lineT + n) / s.cfg.tScanline = 1 := Nat.div_eq_of_lt_le (by omega) (by omega)
  have hadvance : advanceUla n s = ((hsyncEdge (moveClock n s)).1,
      moveClock (hsyncEdge (moveClock n s)).1 (vsyncTrack (hsyncEdge (moveClock n s)).2)) := by
    rw [advanceUla_eq, hcount]
    rfl
  have hpast : s.ula.lineT + n - s.cfg.tScanline ≤ s.ula.t + n := by omega
  obtain ⟨hcost, htaken, hline, hvsync, hsync, hedge, ht, hlineT⟩ := hsyncEdge_nmi (s := moveClock n s) hw hon hpast
  rw [hadvance]
  dsimp only
  rw [hcost]
  generalize (hsyncEdge (moveClock n s)).2 = u at htaken hline hvsync hsync hedge ht hlineT ⊢
  obtain ⟨-, gedge, gline⟩ := vsyncTrack_timing u
  have gclock := vsyncTrack_setBack u
  refine ⟨rfl, ?_, ?_, gedge.trans hedge, congrArg (· + _) (gclock.ulaT.trans ht),
    congrArg (· + _) (gclock.lineT.trans hlineT)⟩
  · rw [vsyncTrack_only]
    exact htaken
  · rw [hvsync, hsync, hline] at gline
    exact gline

theorem advanceUla_of_no_edge (h : (s.ula.lineT + n) / s.cfg.tScanline = 0) :
    advanceUla n s = (0, moveClock 0 (vsyncTrack (moveClock n s))) := by
  rw [advanceUla_eq, h]
  rfl

/-- Settles O54: an advance of the ULA is its edges and the vertical-sync tracking; a run of quiet steps adds up
advances of a quiet ULA. -/
theorem hsyncLine : Obligations.HsyncLine := by
  refine ⟨fun s t hbuffer hoff hsync hvsync => ?_, fun n s t => quietSteps_line, fun s t hsync hvsync hshort => ?_,
    fun s t hinv hclock hvariant hon hlow hhigh => ?_, fun s t hnone => ?_,
    fun s => ⟨hsyncActions_of_off, fun hon hw => hsyncActions_nmi hw hon⟩⟩
  · have hscanline : s.cfg.tScanline = 207 := by simp [Config.tScanline, hbuffer]
    obtain ⟨hcost, honly⟩ := advanceUla_of_off t hoff
    obtain ⟨ht, hlineT, hline, hframe, hnmi, hsync', hvsync'⟩ := advanceUla_of_no_sync t hoff hsync hvsync
    rw [hscanline] at hlineT hline
    rw [ulaStep_of_bufferReplay t hbuffer]
    exact ⟨hcost, ht, hline, hlineT, hframe, by rw [honly], by rw [honly], hnmi, hsync', hvsync'⟩
  · exact (ulaStep_of_no_pulse fun ⟨_, _, hlong⟩ => absurd hlong (by omega)).1
  · obtain ⟨hno, -⟩ | ⟨-, scanRec, colorRec, pendingChar, heq⟩ := ulaStep_cases t s
    · exact absurd hno hvariant
    · rw [heq]
      exact advanceUla_of_one_edge (s := s.withShown scanRec colorRec pendingChar) hinv.memory hclock hon hlow hhigh
  · obtain ⟨-, heq⟩ | ⟨hvariant, scanRec, colorRec, pendingChar, heq⟩ := ulaStep_cases t s <;> rw [heq]
    · exact ⟨rfl, rfl, rfl⟩
    · obtain hoff | hno | hshort := hnone
      · obtain ⟨hcost, honly⟩ := advanceUla_of_off (s := s.withShown scanRec colorRec pendingChar) t hoff
        exact ⟨hcost, by rw [honly]; rfl, by rw [honly]; rfl⟩
      · exact absurd hno hvariant
      · have hzero : (s.ula.lineT + t) / s.cfg.tScanline = 0 := Nat.div_eq_of_lt hshort
        rw [advanceUla_of_no_edge (s := s.withShown scanRec colorRec pendingChar) hzero, vsyncTrack_only]
        exact ⟨rfl, rfl, rfl⟩

end Sys2Proof.Machine
end

section
/-! PROOFS. The frame and the line records (60_exceptions.md R549 to R551, R554). -/

namespace Sys2Proof.Machine

variable {s : State}

/-! ### The line records -/

/-- The lines that `n` edges close, the first with the record `line` (60_exceptions.md R554). -/
def closedLines (n : Nat) (line : List Byte) : List (List Byte) :=
  if n = 0 then [] else line :: List.replicate (n - 1) []

theorem closedLines_succ (n : Nat) (line : List Byte) : closedLines (n + 1) line = [line] ++ closedLines n [] := by
  cases n <;> simp [closedLines, List.replicate_succ]

theorem hsyncEdge_records (hbus : s.cfg.ulaVariant = .busReplay) : let e := (hsyncEdge s).2
    e.cfg = s.cfg ∧ e.ula.work = s.ula.work ++ [s.ula.scanRec] ∧ e.ula.colorWork = s.ula.colorWork ++ [s.ula.colorRec] ∧
      e.ula.scanRec = [] ∧ e.ula.colorRec = [] := by
  obtain ⟨hcfg, -, hula⟩ := hsyncActions_kept (endOfLine (atEdge s))
  rw [hsyncEdge_eq]
  dsimp only
  rw [hcfg, hula, endOfLine_of_busReplay (s := atEdge s) hbus]
  exact ⟨rfl, rfl, rfl, rfl, rfl⟩

/-- In the bus-replay variant each edge closes the two line records (60_exceptions.md R554). -/
theorem hsyncEdges_records (n : Nat) (hbus : s.cfg.ulaVariant = .busReplay) : let e := (hsyncEdges n s).2
    e.ula.work = s.ula.work ++ closedLines n s.ula.scanRec ∧
      e.ula.colorWork = s.ula.colorWork ++ closedLines n s.ula.colorRec ∧
      e.ula.scanRec = (if n = 0 then s.ula.scanRec else []) ∧
      e.ula.colorRec = (if n = 0 then s.ula.colorRec else []) := by
  induction n generalizing s with
  | zero => simp [hsyncEdges, closedLines]
  | succ n ih =>
    obtain ⟨hcfg, hwork, hcolorWork, hscanRec, hcolorRec⟩ := hsyncEdge_records hbus
    obtain ⟨gwork, gcolorWork, gscanRec, gcolorRec⟩ := ih (s := (hsyncEdge s).2) (by rw [hcfg]; exact hbus)
    rw [hwork, hscanRec, List.append_assoc, ← closedLines_succ] at gwork
    rw [hcolorWork, hcolorRec, List.append_assoc, ← closedLines_succ] at gcolorWork
    rw [hscanRec, ite_self] at gscanRec
    rw [hcolorRec, ite_self] at gcolorRec
    exact ⟨gwork, gcolorWork, gscanRec, gcolorRec⟩

/-! ### A completed frame -/

theorem ulaStep_of_busReplay (n : Nat) (hbus : s.cfg.ulaVariant = .busReplay) (hnone : s.ula.pendingChar = none) :
    ulaStep n s = advanceUla n s := by
  simp [ulaStep, hbus, showPending, hnone]

/-- Neither the ULA nor a notice is read back from the display region. -/
theorem readBlock_of_shown (ula : Ula) (notices : List Notice) (a : Word) (len : Nat) :
    readBlock { s with ula := ula, notices := notices } a len = readBlock s a len :=
  readBlock_congr (s := s) (t := { s with ula := ula, notices := notices }) rfl rfl rfl a len

/-- With the generator off the whole step leaves the display region as it was. -/
theorem advanceUla_readBlock (n : Nat) (hoff : s.ula.nmiOn = false) (a : Word) (len : Nat) :
    readBlock (advanceUla n s).2 a len = readBlock s a len := by
  rw [(advanceUla_of_off n hoff).2]
  exact readBlock_of_shown _ _ a len

/-- In the buffer-replay variant a completed frame is the display region as the whole step leaves it
(60_exceptions.md R550). -/
theorem advanceUla_frame_bufferReplay {n : Nat} (hbuffer : s.cfg.ulaVariant = .bufferReplay) (hpulse : PulseEnds n s) :
    let u := (advanceUla n s).2
    u.ula.frame = some (.bytes (readBlock u s.cfg.displayBase s.cfg.displayLen)) ∧ u.ula.frameT = s.ula.t + n ∧
      u.ula.line = 0 ∧ u.ula.vsync = false ∧ u.notices = s.notices ++ [.frameReady] := by
  have hadvance := advanceUla_of_pulse hpulse
  obtain ⟨hcfg, hnotices, hula⟩ := hsyncEdges_edgesOnly ((s.ula.lineT + n) / s.cfg.tScanline) (moveClock n s)
  generalize hsyncEdges ((s.ula.lineT + n) / s.cfg.tScanline) (moveClock n s) = r at hadvance hcfg hnotices hula
  have hvariant : (endVsync r.2).cfg.ulaVariant = .bufferReplay := by
    rw [← hbuffer]
    exact congrArg Config.ulaVariant hcfg
  dsimp only at hadvance
  rw [frameComplete_of_bufferReplay hvariant] at hadvance
  rw [hadvance]
  refine ⟨?_, (congrArg Ula.t hula :), rfl, rfl, congrArg (· ++ [Notice.frameReady]) hnotices⟩
  have hcfg : (endVsync r.2).cfg = s.cfg := hcfg
  rw [← hcfg]
  exact congrArg (some <| Frame.bytes ·) (readBlock_of_shown _ _ _ _).symm

/-- In the bus-replay variant a completed frame is the lines closed, and the records are emptied
(60_exceptions.md R550). -/
theorem advanceUla_frame_busReplay {n : Nat} (hbus : s.cfg.ulaVariant = .busReplay) (hpulse : PulseEnds n s) :
    let u := (advanceUla n s).2
    let edges := (s.ula.lineT + n) / s.cfg.tScanline
    u.ula.frame = some (.lines (s.ula.work ++ closedLines edges s.ula.scanRec)
        (s.ula.colorWork ++ closedLines edges s.ula.colorRec)) ∧
      u.ula.frameT = s.ula.t + n ∧ u.ula.line = 0 ∧ u.ula.vsync = false ∧ u.notices = s.notices ++ [.frameReady] ∧
      u.ula.scanRec = [] ∧ u.ula.colorRec = [] ∧ u.ula.work = [] ∧ u.ula.colorWork = [] := by
  have hadvance := advanceUla_of_pulse hpulse
  obtain ⟨hcfg, hnotices, hula⟩ := hsyncEdges_edgesOnly ((s.ula.lineT + n) / s.cfg.tScanline) (moveClock n s)
  obtain ⟨hwork, hcolorWork, -, -⟩ := hsyncEdges_records (s := moveClock n s) ((s.ula.lineT + n) / s.cfg.tScanline) hbus
  generalize hsyncEdges ((s.ula.lineT + n) / s.cfg.tScanline) (moveClock n s) = r at *
  have hvariant : (endVsync r.2).cfg.ulaVariant = .busReplay := by
    rw [← hbus]
    exact congrArg Config.ulaVariant hcfg
  dsimp only at hadvance
  rw [frameComplete_of_busReplay hvariant] at hadvance
  rw [hadvance]
  exact ⟨congrArg₂ (fun work colorWork => some (Frame.lines work colorWork)) hwork hcolorWork, (congrArg Ula.t hula :),
    rfl, rfl, congrArg (· ++ [Notice.frameReady]) hnotices, rfl, rfl, rfl, rfl⟩

/-- Settles O55: without a pulse of the minimum length no frame is shown, and with one `FrameComplete` shows it. -/
theorem frameOnlyByPulse : Obligations.FrameOnlyByPulse := by
  refine ⟨fun s t hchanged => ?_, fun s t hbuffer hsync hvsync hlong => ?_, fun s t hbus hnone => ?_, fun s => ?_⟩
  · by_contra hno
    obtain ⟨hframe, hnotices⟩ := ulaStep_of_no_pulse (n := t) (s := s) hno
    exact hchanged.elim (absurd hframe) (absurd hnotices)
  · rw [ulaStep_of_bufferReplay t hbuffer]
    obtain ⟨hframe, hrest⟩ := advanceUla_frame_bufferReplay hbuffer ⟨hsync, hvsync, hlong⟩
    exact ⟨hframe, fun hoff => advanceUla_readBlock t hoff _ _ ▸ hframe, hrest⟩
  · rw [ulaStep_of_busReplay t hbus hnone]
    refine ⟨fun hsync hvsync hlong => advanceUla_frame_busReplay hbus ⟨hsync, hvsync, hlong⟩, fun hno => ?_⟩
    have hpulse : ¬ PulseEnds t s := by
      rintro ⟨hsync, hvsync, hlong⟩
      obtain hsync' | hvsync' | hshort := hno
      · simp [hsync] at hsync'
      · simp [hvsync] at hvsync'
      · omega
    obtain ⟨hframe, -, hscanRec, hwork, hcolorRec, hcolorWork⟩ := advanceUla_of_no_pulse hpulse
    obtain ⟨gwork, gcolorWork, gscanRec, gcolorRec⟩ :=
      hsyncEdges_records (s := moveClock t s) ((s.ula.lineT + t) / s.cfg.tScanline) hbus
    exact ⟨hwork.trans gwork, hcolorWork.trans gcolorWork, hscanRec.trans gscanRec, hcolorRec.trans gcolorRec, hframe⟩
  · exact if_congr (by omega) rfl rfl

end Sys2Proof.Machine
end

section
/-! PROOFS. The debug loop: batches, and the order of the stops (60_exceptions.md R562 to R566, R570 to R572). -/

namespace Sys2Proof.Machine

variable {s t : State} {single returned : Bool}

/-! ### Batches (60_exceptions.md R570) -/

theorem runBatch_of_idle (n : Nat) (hidle : s.dbg.loop = .idle) : runBatch n s = .next s := by
  cases n <;> simp [runBatch, hidle]

theorem runBatch_add (m n : Nat) (s : State) :
    runBatch (m + n) s =
      match runBatch m s with
      | .next t => runBatch n t
      | .fault f => .fault f
      | .refused r => .refused r := by
  induction m generalizing s with
  | zero => rw [Nat.zero_add]; rfl
  | succ m ih =>
    rw [Nat.succ_add]
    by_cases hidle : s.dbg.loop = .idle
    · simp only [runBatch_of_idle _ hidle]
    · simp only [runBatch, hidle, if_false]
      cases iteration false s with
      | next t => exact ih t
      | fault f => rfl
      | refused r => rfl

theorem runBatch_one (hloop : s.dbg.loop ≠ .idle) : runBatch 1 s = iteration false s := by
  simp only [runBatch, hloop, if_false]
  cases iteration false s <;> rfl

/-- Settles O58, by induction on the number of iterations of the first run. -/
theorem batchIndependence : Obligations.BatchIndependence :=
  ⟨fun s m n => runBatch_add m n s, fun _ => runBatch_one, fun _ => runBatch_of_idle, fun _ => rfl⟩

/-! ### What the table entries at `PC` answer (60_exceptions.md R563) -/

theorem Breakpoint.answer_eq (t : State) (b : Breakpoint) :
    (b.condition.map (fun id => evalCondition id t)).getD .isTrue = b.answer t := by
  unfold Breakpoint.answer
  cases b.condition <;> rfl

theorem Breakpoint.stops_iff (t : State) (b : Breakpoint) :
    b.stops t = true ↔ b.answer t = .error ∨ (b.answer t = .isTrue ∧ ∀ m, b.action ≠ .logOnly m) := by
  unfold Breakpoint.stops
  cases b.answer t <;> cases b.action <;> simp

/-- The messages the entries at `PC` emit, in table order. -/
def messagesHere (t : State) : List Notice := (breakpointsHere t).filterMap (Breakpoint.message t)

theorem messagesHere_eq (t : State) :
    messagesHere t = t.dbg.breakpoints.filterMap (fun b =>
      if b.address = t.cpu.pc ∧ b.answer t = .isTrue then
        match b.action with
        | .stop => none
        | .logOnly m => some (.logMessage t.cpu.pc m)
        | .logAndStop m => some (.logMessage t.cpu.pc m)
      else none) := by
  unfold messagesHere breakpointsHere
  rw [List.filterMap_filter]
  refine List.filterMap_congr fun b _ => ?_
  by_cases hhere : b.address = t.cpu.pc
  · simp only [hhere, beq_self_eq_true, if_true, true_and, Breakpoint.message]
    cases b.answer t <;> cases b.action <;> rfl
  · simp [hhere]

/-- The state after the messages of the entries at `PC`. -/
def emitted (t : State) : State := { t with notices := t.notices ++ messagesHere t }

/-- A breakpoint at `PC` stops the run (60_exceptions.md R563). -/
def AtBreakpoint (t : State) : Prop :=
  t.dbg.transient1 = some t.cpu.pc ∨ t.dbg.transient2 = some t.cpu.pc ∨
    ∃ b ∈ t.dbg.breakpoints, (b.address = t.cpu.pc ∧ b.answer t = .error) ∨
      ((b.address = t.cpu.pc ∧ b.answer t = .isTrue) ∧ ∀ m, b.action ≠ .logOnly m)

/-- The check answers what R563 says of the transient breakpoints and the table. -/
theorem breakpointCheck_stops_iff (t : State) : (breakpointCheck t).1 = true ↔ AtBreakpoint t := by
  simp only [breakpointCheck, breakpointsHere, AtBreakpoint, Bool.or_eq_true, beq_iff_eq, List.any_filter,
    List.any_eq_true, Bool.and_eq_true, Breakpoint.stops_iff, or_assoc]
  grind

/-! ### The order of the stops (60_exceptions.md R562, R565) -/

theorem stopChecks_of_fault (hfault : t.fault ≠ none) :
    stopChecks single returned t = stopRun ⟨.unexpectedFailure, t.pc0, none⟩ t :=
  if_pos (Option.isSome_iff_ne_none.mpr hfault)

theorem stopChecks_of_failure {f : Failure} (hfault : t.fault = none) (hfailure : t.failure = some f) :
    stopChecks single returned t = stopRun ⟨.unexpectedFailure, t.pc0, some f⟩ t := by
  simp [stopChecks, hfault, hfailure]

theorem stopChecks_of_breakpoint (hfault : t.fault = none) (hfailure : t.failure = none) (hat : AtBreakpoint t) :
    stopChecks single returned t = stopRun ⟨.breakpointHit, t.cpu.pc, none⟩ (emitted t) := by
  simp only [stopChecks, hfault, hfailure, (breakpointCheck_stops_iff t).mpr hat]
  rfl

theorem stopChecks_of_no_breakpoint (hfault : t.fault = none) (hfailure : t.failure = none) (hat : ¬ AtBreakpoint t) :
    stopChecks single returned t = lateStops single returned (emitted t) := by
  have hcheck : (breakpointCheck t).1 = false := by
    rwa [← Bool.not_eq_true, breakpointCheck_stops_iff]
  simp only [stopChecks, hfault, hfailure, hcheck]
  rfl

theorem lateStops_of_read {a : Word} (hhit : t.watch.hit = some (a, .read)) :
    lateStops single returned t = stopRun ⟨.watchpointRead, a, none⟩ t := by
  simp [lateStops, hhit]

theorem lateStops_of_write {a : Word} (hhit : t.watch.hit = some (a, .write)) :
    lateStops single returned t = stopRun ⟨.watchpointWrite, a, none⟩ t := by
  simp [lateStops, hhit]

/-- The state after a pause request was acknowledged (60_exceptions.md R562 item 7). -/
def acknowledged (t : State) : State :=
  { t with
    dbg := { t.dbg with pauseReq := false }
    notices := t.notices ++ [.pauseAcknowledged] }

theorem lateStops_of_pause (hhit : t.watch.hit = none) (hpause : t.dbg.pauseReq = true) :
    lateStops single returned t = stopRun ⟨.manualPause, t.cpu.pc, none⟩ (acknowledged t) := by
  simp [lateStops, hhit, hpause, acknowledged]

/-- With no hit and no pause request a single step stops, and a step-out whose return was taken
(60_exceptions.md R571, R572). -/
theorem lateStops_of_quiet (hhit : t.watch.hit = none) (hpause : t.dbg.pauseReq = false) :
    lateStops single returned t =
      if single = true ∨ (t.dbg.loop = .steppingOut ∧ returned = true ∧ t.dbg.sp0.toNat < t.cpu.sp.toNat) then
        stopRun ⟨.stepDone, t.cpu.pc, none⟩ t
      else t := by
  cases single <;> simp [lateStops, hhit, hpause, BitVec.lt_def]

/-- What the stop checks leave as the machine step left it. -/
def LoopOnly (t u : State) : Prop :=
  u.cpu = t.cpu ∧ u.mem = t.mem ∧ u.slots = t.slots ∧ u.ula = t.ula ∧ u.fault = t.fault ∧
    u.dbg.breakpoints = t.dbg.breakpoints

theorem loopOnly_stopRun (record : StopRecord) (t : State) : LoopOnly t (stopRun record t) :=
  ⟨rfl, rfl, rfl, rfl, rfl, rfl⟩

theorem loopOnly_lateStops (single returned : Bool) (t : State) : LoopOnly t (lateStops single returned t) := by
  obtain hhit | ⟨⟨a, kind⟩, hhit⟩ := Option.eq_none_or_eq_some t.watch.hit
  · by_cases hpause : t.dbg.pauseReq = true
    · rw [lateStops_of_pause hhit hpause]
      exact loopOnly_stopRun _ (acknowledged t)
    · rw [lateStops_of_quiet hhit (by simpa using hpause)]
      split
      · exact loopOnly_stopRun _ t
      · exact ⟨rfl, rfl, rfl, rfl, rfl, rfl⟩
  · cases kind with
    | read => rw [lateStops_of_read hhit]; exact loopOnly_stopRun _ t
    | write => rw [lateStops_of_write hhit]; exact loopOnly_stopRun _ t

theorem loopOnly_stopChecks (single returned : Bool) (t : State) : LoopOnly t (stopChecks single returned t) := by
  by_cases hfault : t.fault = none
  · obtain hfailure | ⟨f, hfailure⟩ := Option.eq_none_or_eq_some t.failure
    · by_cases hat : AtBreakpoint t
      · rw [stopChecks_of_breakpoint hfault hfailure hat]
        exact loopOnly_stopRun _ (emitted t)
      · rw [stopChecks_of_no_breakpoint hfault hfailure hat]
        exact loopOnly_lateStops single returned (emitted t)
    · rw [stopChecks_of_failure hfault hfailure]
      exact loopOnly_stopRun _ t
  · rw [stopChecks_of_fault hfault]
    exact loopOnly_stopRun _ t

theorem lateStops_notices (single returned : Bool) (h : t.watch.hit ≠ none ∨ t.dbg.pauseReq = false) :
    (lateStops single returned t).notices = t.notices := by
  obtain hhit | ⟨⟨a, kind⟩, hhit⟩ := Option.eq_none_or_eq_some t.watch.hit
  · rw [lateStops_of_quiet hhit (h.resolve_left (not_not.mpr hhit))]
    split <;> rfl
  · cases kind with
    | read => rw [lateStops_of_read hhit]; rfl
    | write => rw [lateStops_of_write hhit]; rfl

theorem stopChecks_notices_of_failure (hbad : t.fault ≠ none ∨ t.failure ≠ none) :
    (stopChecks single returned t).notices = t.notices := by
  by_cases hfault : t.fault = none
  · obtain ⟨f, hfailure⟩ := Option.ne_none_iff_exists'.mp (hbad.resolve_left (not_not.mpr hfault))
    rw [stopChecks_of_failure hfault hfailure]
    rfl
  · rw [stopChecks_of_fault hfault]
    rfl

theorem stopChecks_notices (hfault : t.fault = none) (hfailure : t.failure = none)
    (hquiet : AtBreakpoint t ∨ t.watch.hit ≠ none ∨ t.dbg.pauseReq = false) :
    (stopChecks single returned t).notices = t.notices ++ messagesHere t := by
  by_cases hat : AtBreakpoint t
  · rw [stopChecks_of_breakpoint hfault hfailure hat]
    rfl
  · rw [stopChecks_of_no_breakpoint hfault hfailure hat]
    exact lateStops_notices (t := emitted t) single returned (hquiet.resolve_left hat)

/-! ### The return of a step-out (60_exceptions.md R572) -/

theorem runsTakenReturn_iff (s : State) :
    runsTakenReturn s = true ↔ ∃ i rest, decode (fetchInstr (beginCall s)).1 = .ok (i, rest) ∧
      (i ∈ [.ret, .reti, .retn] ∨ ∃ cc, i = .retCC cc ∧ condHolds s cc = true) := by
  simp only [runsTakenReturn, nextInstr]
  cases decode (fetchInstr (beginCall s)).1 with
  | error e => simp
  | ok answer =>
    obtain ⟨i, rest⟩ := answer
    -- The four forms of a return, and every other instruction.
    simp only [Except.ok.injEq, Prod.mk.injEq]
    split <;> simp_all

theorem condHolds_clearHit (s : State) (cc : Cond) : condHolds (clearHit s) cc = condHolds s cc := by
  cases cc <;> rfl

theorem iteration_of_next (h : machineStep (clearHit s) = .next t) :
    iteration single s = .next (stopChecks single (runsTakenReturn (clearHit s)) t) := by
  simp only [iteration, h]

/-- Settles O57: each clause is the equation of `stopChecks` or `lateStops` for its stop. -/
theorem debugStops : Obligations.DebugStops := by
  intro s t single hstep
  refine ⟨_, iteration_of_next hstep, ?_⟩
  have hreturned := runsTakenReturn_iff (clearHit s)
  simp only [condHolds_clearHit] at hreturned
  generalize runsTakenReturn (clearHit s) = returned at hreturned
  obtain ⟨hcpu, hmem, hslots, hula, hfault, htable⟩ := loopOnly_stopChecks single returned t
  refine ⟨hcpu, hmem, hslots, hula, hfault, htable, ?_⟩
  simp only [← hreturned, Breakpoint.answer_eq]
  have hmessages := messagesHere_eq t
  refine ⟨fun hbad => ?_, fun f hnone hbad => ?_, fun hnone hok hat => ?_, fun hbad => ?_, fun hnone hok hquiet => ?_,
    fun hnone hok hat => ?_⟩
  · rw [stopChecks_of_fault hbad]
    exact ⟨rfl, rfl⟩
  · rw [stopChecks_of_failure hnone hbad]
    exact ⟨rfl, rfl⟩
  · rw [stopChecks_of_breakpoint hnone hok hat]
    exact ⟨rfl, rfl⟩
  · exact stopChecks_notices_of_failure hbad
  · exact (stopChecks_notices hnone hok hquiet).trans (congrArg (t.notices ++ ·) hmessages)
  · rw [stopChecks_of_no_breakpoint hnone hok hat]
    refine ⟨fun a hhit => ?_, fun a hhit => ?_, fun hhit hpause => ?_, fun hhit hpause => ?_⟩
    · rw [lateStops_of_read (t := emitted t) hhit]
      exact ⟨rfl, rfl⟩
    · rw [lateStops_of_write (t := emitted t) hhit]
      exact ⟨rfl, rfl⟩
    · rw [lateStops_of_pause (t := emitted t) hhit hpause]
      exact ⟨⟨rfl, rfl⟩, rfl, congrArg (t.notices ++ · ++ [.pauseAcknowledged]) hmessages⟩
    · rw [lateStops_of_quiet (t := emitted t) hhit hpause]
      refine ⟨fun hsingle => ?_, fun _ hout hret hsp => ?_, fun hsingle hgo => ?_⟩
      · rw [if_pos (.inl hsingle)]
        exact ⟨rfl, rfl⟩
      · rw [if_pos (.inr ⟨hout, hret, hsp⟩)]
        exact ⟨rfl, rfl⟩
      · rw [if_neg]
        · rfl
        · rintro (hstop | ⟨hout, hret, hsp⟩)
          · simp [hsingle] at hstop
          · exact hgo.elim (absurd hout) fun hgo => hgo.elim (absurd hret) (Nat.not_le.mpr hsp)

end Sys2Proof.Machine
end

section
/-! PROOFS. Snapshot and restore (60_exceptions.md R583, R584). -/

namespace Sys2Proof.Machine

variable {x y s : State}

theorem restore_of_wrong_shape {snap : Snapshot} (hidle : y.dbg.loop = .idle) (hshape : snap.shape ≠ shapeOf y.cfg) :
    restore snap y = .ok { y with fault := some .corruptState } := by
  simp [restore, hidle, hshape]

theorem restore_save (hidle : y.dbg.loop = .idle) (hcfg : y.cfg = x.cfg) (hlen : x.slots.length = x.cfg.slots.length) :
    restore (save x) y = .ok (takeOver (save x) y) := by
  simp [restore, save, hidle, hcfg, hlen]

theorem step_of_fault {f : Fault} (hfault : s.fault = some f) : step s = .fault f := by
  simp only [step, hfault]

/-- Settles O60: a snapshot of the shape of `y` is taken over, any other leaves the mark. -/
theorem snapshotRoundTrip : Obligations.SnapshotRoundTrip := by
  refine fun x y hidle => ⟨fun hcfg hlen => ?_, fun snap hshape => ?_⟩
  · refine ⟨_, restore_save hidle hcfg hlen, rfl, rfl, rfl, rfl, rfl, rfl, hcfg, fun a => ?_,
      rfl, rfl, rfl, rfl, rfl, rfl, rfl, rfl, rfl, rfl⟩
    exact peek_congr (s := x) (t := takeOver (save x) y) hcfg rfl rfl a
  · exact ⟨_, restore_of_wrong_shape hidle hshape, rfl, step_of_fault rfl⟩

end Sys2Proof.Machine
end
